-- ==== Sys2Proof/Word.lean ====
section
/-! DEFINITION. The word types of the FP-2604: bytes, 16-bit and 32-bit fields, levels, flows, block numbers. -/

namespace Sys2Proof

/-- A byte (00_scope section 3.1). -/
abbrev Byte := BitVec 8

/-- A two-byte field: a label, a transaction number, a descriptor parameter. -/
abbrev Word16 := BitVec 16

/-- A four-byte field: a counter, the Tick Counter, a frame check. -/
abbrev Word32 := BitVec 32

/-- An urgency level, which is also the stream number on line-out (00_scope section 3.2). -/
abbrev Level := Fin 4

/-- A flow index, 0 to 255 (00_scope section 3.3). -/
abbrev Flow := Fin 256

/-- A Frame Store block number, 0 to 1023 (R76). -/
abbrev BlockNo := Fin 1024

/-- The four levels, most urgent first (00_scope section 3.2). -/
def allLevels : List Level := [0, 1, 2, 3]

/-- The 256 flows in ascending index. -/
def allFlows : List Flow := List.finRange 256

end Sys2Proof
end

