-- ==== Sys2Proof/Syntax.lean ====
section
/-! DEFINITION. The commands the FP-2604 takes: one constructor per row of spec/opcode_table.json. -/

namespace Sys2Proof

/-- What follows a control code on line-out receive: its argument byte, or a report that is not a byte, which is then
taken as a command of its own (R180; log 23). -/
inductive SymbolArgument where
  | byte (b : Byte)
  | notAByte
  deriving DecidableEq, Repr

/-- The two control codes that are sent by the part and discarded when received (R180). -/
inductive SentSymbol where
  | abort
  | streamReset
  deriving DecidableEq, Repr

/-- The commands, in the order of the table. A management command carries no operand here: its operands are the bytes of
the Inbox entry the agent begins (R132, R134). -/
inductive Instr where
  /-- POWER_UP_RESET (R131): the power-up reset ends with STRAP[3:0] at these values. -/
  | powerUpReset (straps : BitVec 4)
  /-- LINE_IN_START_DELIMITER (R92). -/
  | lineInStartDelimiter
  /-- LINE_IN_BYTE (R93). -/
  | lineInByte (b : Byte)
  /-- LINE_IN_END_DELIMITER (R98). -/
  | lineInEndDelimiter
  /-- LINE_IN_ERROR_SYMBOL (R92). -/
  | lineInErrorSymbol
  /-- LINE_IN_COMES_UP (R105). -/
  | lineInComesUp
  /-- LINE_IN_GOES_DOWN (R104). -/
  | lineInGoesDown
  /-- HOLD_SYMBOL (R30): a Hold control code and what follows it (R180). -/
  | holdSymbol (arg : SymbolArgument)
  /-- RECEIVED_ABORT_OR_STREAM_RESET (R180). -/
  | receivedAbortOrStreamReset (symbol : SentSymbol) (arg : SymbolArgument)
  /-- RETURN_START_DELIMITER (R152). -/
  | returnStartDelimiter
  /-- RETURN_BYTE (R153). -/
  | returnByte (b : Byte)
  /-- RETURN_END_DELIMITER (R153). -/
  | returnEndDelimiter
  /-- RETURN_ERROR_SYMBOL (R153). -/
  | returnErrorSymbol
  /-- LINE_OUT_COMES_UP (R48). -/
  | lineOutComesUp
  /-- LINE_OUT_GOES_DOWN (R45). -/
  | lineOutGoesDown
  /-- SEGMENT_COMPLETION (R8). -/
  | segmentCompletion
  /-- CONTROL_SYMBOL_COMPLETION (R10). -/
  | controlSymbolCompletion
  /-- TICK_EXPIRY (R50). -/
  | tickExpiry
  /-- STALL_TIMER_EXPIRY (R39): the expiry of this level's stall timer. -/
  | stallTimerExpiry (level : Level)
  /-- GATE_PHASE_CHANGE (R63), of this flow. -/
  | gatePhaseChange (flow : Flow)
  /-- WINDOW_BOUNDARY (R65), of this flow. -/
  | windowBoundary (flow : Flow)
  /-- EPOCH_BOUNDARY (R65), of this flow. -/
  | epochBoundary (flow : Flow)
  /-- ADMISSION_REQUEST (R53): the Pacing Unit takes the oldest request handed to it. -/
  | admissionRequest
  /-- RETURN_MERGE_CHOICE (R156). -/
  | returnMergeChoice
  /-- LINE_IN_TRANSMISSION_COMPLETION (R159). -/
  | lineInTransmissionCompletion
  /-- JOB_ITEM_COMPLETION (R121). -/
  | jobItemCompletion
  /-- IDENTIFY (R145). -/
  | identify
  /-- READ_SETTINGS (R142). -/
  | readSettings
  /-- WRITE_SETTINGS (R143). -/
  | writeSettings
  /-- READ_STATUS (R175). -/
  | readStatus
  /-- READ_MAP_ENTRY (R118). -/
  | readMapEntry
  /-- LIST_MAP (R119). -/
  | listMap
  /-- WRITE_MAP_ENTRY (R114). -/
  | writeMapEntry
  /-- REMOVE_MAP_ENTRY (R115). -/
  | removeMapEntry
  /-- READ_FLOW (R118). -/
  | readFlow
  /-- WRITE_FLOW (R116). -/
  | writeFlow
  /-- MODIFY_FLOW (R117). -/
  | modifyFlow
  /-- COPY_PLAN (R122). -/
  | copyPlan
  /-- CHECK_PLAN (R123). -/
  | checkPlan
  /-- SWAP_PLAN (R128). -/
  | swapPlan
  /-- ABORT_JOB (R126). -/
  | abortJob
  /-- READ_PACING (R73). -/
  | readPacing
  /-- FLUSH_FLOW (R72). -/
  | flushFlow
  /-- RESTART_TRAFFIC (R146). -/
  | restartTraffic
  /-- RESTART_AT_LINE_IN_RECEIVER (R106). -/
  | restartAtLineInReceiver
  /-- RESTART_AT_PACING_UNIT (R74). -/
  | restartAtPacingUnit
  /-- RESTART_AT_EGRESS_SCHEDULER (R25). -/
  | restartAtEgressScheduler
  /-- RESTART_TRAFFIC_COMPLETION (R147). -/
  | restartTrafficCompletion
  /-- READ_COUNTERS (R166). -/
  | readCounters
  /-- READ_AND_CLEAR_COUNTERS (R167). -/
  | readAndClearCounters
  /-- MALFORMED_COMMAND (R140). -/
  | malformedCommand
  deriving DecidableEq, Repr

end Sys2Proof
end

