-- ==== Sys2Proof/WellFormed.lean ====
section
/-! DEFINITION. Which commands are well formed. Every operand's type holds exactly the values the spec gives it, but for the
argument of a control symbol, whose encoding 10_formats section 10.4 fixes: only there can a term be ill formed. -/

namespace Sys2Proof

/-- A Hold argument that can be decoded: bits 7 to 4 are the bitwise complement of bits 3 to 0 (10_formats section 10.4). -/
def SymbolArgument.isHold : SymbolArgument → Bool
  | .byte b => b.extractLsb 7 4 == ~~~ (b.extractLsb 3 0)
  | .notAByte => false

/-- An Abort argument as the table gives it: bits 7 to 2 are 0b101101 (10_formats section 10.4). -/
def SymbolArgument.isAbort : SymbolArgument → Bool
  | .byte b => b.extractLsb 7 2 == 0b101101#6
  | .notAByte => false

/-- A Stream Reset argument as the table gives it: 0x5A (10_formats section 10.4). -/
def SymbolArgument.isStreamReset : SymbolArgument → Bool
  | .byte b => b == 0x5A#8
  | .notAByte => false

/-- A command is well formed when a control symbol it brings has the argument 10_formats section 10.4 gives that symbol. The
part takes an ill-formed one all the same, as R180 says: it discards it. -/
def Instr.wellFormed : Instr → Bool
  | .powerUpReset _ => true
  | .lineInStartDelimiter => true
  | .lineInByte _ => true
  | .lineInEndDelimiter => true
  | .lineInErrorSymbol => true
  | .lineInComesUp => true
  | .lineInGoesDown => true
  | .holdSymbol arg => arg.isHold
  | .receivedAbortOrStreamReset .abort arg => arg.isAbort
  | .receivedAbortOrStreamReset .streamReset arg => arg.isStreamReset
  | .returnStartDelimiter => true
  | .returnByte _ => true
  | .returnEndDelimiter => true
  | .returnErrorSymbol => true
  | .lineOutComesUp => true
  | .lineOutGoesDown => true
  | .segmentCompletion => true
  | .controlSymbolCompletion => true
  | .tickExpiry => true
  | .stallTimerExpiry _ => true
  | .gatePhaseChange _ => true
  | .windowBoundary _ => true
  | .epochBoundary _ => true
  | .admissionRequest => true
  | .returnMergeChoice => true
  | .lineInTransmissionCompletion => true
  | .jobItemCompletion => true
  | .identify => true
  | .readSettings => true
  | .writeSettings => true
  | .readStatus => true
  | .readMapEntry => true
  | .listMap => true
  | .writeMapEntry => true
  | .removeMapEntry => true
  | .readFlow => true
  | .writeFlow => true
  | .modifyFlow => true
  | .copyPlan => true
  | .checkPlan => true
  | .swapPlan => true
  | .abortJob => true
  | .readPacing => true
  | .flushFlow => true
  | .restartTraffic => true
  | .restartAtLineInReceiver => true
  | .restartAtPacingUnit => true
  | .restartAtEgressScheduler => true
  | .restartTrafficCompletion => true
  | .readCounters => true
  | .readAndClearCounters => true
  | .malformedCommand => true

end Sys2Proof
end

