-- ==== Sys2Proof/Decode.lean ====
section
/-! DEFINITION. The decoder of command words. No row of spec/opcode_table.json gives any bits: the part has no word that spells
one of its events. (The bytes of management frames, segments and control symbols are read in Machine/Operands.lean and written
in Machine/Formats.lean.) -/

namespace Sys2Proof

/-- The command a word spells by the table's bits: none, since the table gives no row any bits. -/
def decodeTableWord (_nbits _w : Nat) : Option Instr := none

end Sys2Proof
end

