-- ==== Sys2Proof/Config.lean ====
section
/-! DEFINITION. What the FP-2604 fixes for good (vendor, part and revision codes, capacities) and the free values:
constants without a body for the values the spec does not state. -/

namespace Sys2Proof.Config

/-- The vendor code Identify returns (R145). -/
abbrev vendorCode : Word16 := 0x3A1C

/-- The part code Identify returns (R145). -/
abbrev partCode : Word16 := 0x2604

/-- The revision code Identify returns, for the parts the manual describes (R145). -/
abbrev revisionCode : Byte := 0x01

/-- The thirteen capacities of R145, in the order 10_formats section 10.2 sends them. -/
abbrev capacities : List Word16 := [1024, 64, 1024, 16, 256, 512, 256, 4, 4, 4, 2, 2, 7]

/-- FREE VALUE. The contents of a Frame Store byte that nothing has written since power-up
(04_the_frame_store section 4.1: "contents undefined"), by its address. DESIGN CHOICE, log 6. -/
opaque undefinedByte : (address : Nat) → Byte

/-- FREE VALUE. A byte whose value the spec does not state, by the index of the draw (State.draws), the place in the
part that needs it and the number of the byte there. DESIGN CHOICE, logs 4, 10, 11 and 12. -/
opaque freeByte : (draw : Nat) → (site : Nat) → (index : Nat) → Byte

end Sys2Proof.Config
end

