-- ==== Sys2Proof/Machine/State.lean ====
section
/-! DEFINITION. The state of the FP-2604 as plain data, block by block (00_scope section 2.2), the outcomes' reason types, and
the state after power-up. -/

namespace Sys2Proof.Machine

open Sys2Proof

/-! ## Outcomes -/

/-- Why the machine stops with a fault: there is no reason. The spec gives every row of the table an effect in every state, so
no command faults, and the type has no constructor. -/
inductive Fault where
  deriving DecidableEq, Repr

/-- Why a command has no meaning. -/
inductive Refusal where
  /-- Raised by `exec` for a row of the table whose meaning is not written yet; safe. No arm uses it. -/
  | notModelled (mnemonic : String)
  deriving DecidableEq, Repr

/-! ## The forwarding plan -/

/-- A bank of the forwarding plan (R108). -/
inductive Bank where
  | bankA
  | bankB
  deriving DecidableEq, Repr

/-- The five pacing modes, in their encoding's order (03_pacing section 3.4, 10_formats section 10.2). -/
inductive PacingMode where
  | openMode
  | interval
  | credit
  | gate
  | tiered
  deriving DecidableEq, Repr

/-- What an admission loses at a full queue (03_pacing section 3.2). -/
inductive OverflowAction where
  | dropNew
  | dropOldest
  deriving DecidableEq, Repr

/-- A flow descriptor (06_the_forwarding_plan section 6.3), its thirteen fields in table order. -/
structure Descriptor where
  present : Bool
  urgency : Level
  preemptible : Bool
  preempting : Bool
  mode : PacingMode
  param1 : Word16
  param2 : Word16
  param3 : Word16
  param4 : Word16
  depthLimit : Byte
  overflow : OverflowAction
  maxResidence : Word16
  generation : Byte
  deriving DecidableEq, Repr

/-- One entry of a Label Map (R109). -/
structure MapEntry where
  label : Word16
  flow : Flow
  deriving DecidableEq, Repr

/-- One bank: its Label Map in ascending label order, its Flow Table and its Ready mark (R108, R113). -/
structure BankContents where
  map : List MapEntry
  flows : Vector Descriptor 256
  ready : Bool
  deriving DecidableEq, Repr

/-- The two kinds of background job (R121). -/
inductive JobKind where
  | copy
  | check
  deriving DecidableEq, Repr

/-- The part of a bank a job works through (R121). -/
inductive JobPhase where
  | map
  | flows
  deriving DecidableEq, Repr

/-- The Job slot's contents (06_the_forwarding_plan section 6.6). -/
structure Job where
  kind : JobKind
  bank : Bank
  transaction : Word16
  phase : JobPhase
  progress : Nat
  deriving DecidableEq, Repr

/-- The Plan Store (R108). -/
structure PlanStore where
  bankA : BankContents
  bankB : BankContents
  active : Bank
  job : Option Job
  deriving DecidableEq, Repr

/-! ## Frame records (04_the_frame_store section 4.2) -/

/-- The class that decides whether a frame may use blocks below the Reserve Floor (R80). -/
inductive ReserveClass where
  | class0
  | class1
  deriving DecidableEq, Repr

/-- The record of the frame in reception: made with its first block (R78). -/
structure ReceptionRecord where
  flow : Flow
  reserveClass : ReserveClass
  chain : List BlockNo
  deriving DecidableEq, Repr

/-- A completely received frame, as handed over with its admission request (R78, R99). -/
structure FrameRecord extends ReceptionRecord where
  length : Nat
  deriving DecidableEq, Repr

/-- An admitted frame in its flow queue (R52, R53). -/
structure QueuedFrame extends FrameRecord where
  arrivalTick : Word32
  deriving DecidableEq, Repr

/-- A released frame in a lane, with the copies made at its release (R2, R69). -/
structure ReleasedFrame extends QueuedFrame where
  level : Level
  preemptible : Bool
  preempting : Bool
  deriving DecidableEq, Repr

/-- A started frame, in the slot or on the suspension stack (R6, R17). -/
structure SentFrame extends ReleasedFrame where
  segmentsSent : Nat
  deriving DecidableEq, Repr

/-! ## The Line-In Receiver and the Classifier -/

/-- The states of the Line-In Receiver (R92). -/
inductive LineInState where
  | down
  | idle
  | header
  | keep
  | drain
  deriving DecidableEq, Repr

/-- The Line-In Receiver: its state and the frame in reception (R92, R93). -/
structure LineInReceiver where
  state : LineInState
  /-- Bytes arrived of the frame in reception (R92). -/
  byteCount : Nat
  /-- The frame is marked bad (R92). -/
  bad : Bool
  /-- The hold-back, oldest byte first (R93). -/
  holdBack : List Byte
  /-- The CRC-32 register over the bytes that have left the hold-back (R93, R177). -/
  crc : Word32
  /-- The header so far: the first four bytes (R94, R79). -/
  header : List Byte
  /-- The record with the partial chain, once a block is taken (R78). -/
  record : Option ReceptionRecord
  /-- A block request was refused (R82). -/
  truncated : Bool
  /-- The frame passed its greatest length (R84, R96). -/
  overLength : Bool
  /-- The frame found the Inbox full (R95). -/
  overflowed : Bool
  /-- The frame was discarded by Restart Traffic (R106; R98 row 3). -/
  restarted : Bool
  deriving DecidableEq, Repr

/-- What a frame was found to be (05 section 5.3). -/
inductive FrameKind where
  | management
  | forward (flow : Flow) (reserveClass : ReserveClass)
  | unmapped
  deriving DecidableEq, Repr

/-- The classification of the frame in reception (R94). -/
structure Classification where
  label : Word16
  kind : FrameKind
  /-- The frame holds the tail place of the Inbox (R95; log 5). -/
  inboxPlace : Bool
  deriving DecidableEq, Repr

/-! ## The Frame Store -/

/-- The blocks' bytes by address, 64 x block + offset, and the free list, next to be taken first (R76, R77). A byte that nothing
has written is not listed (log 6). -/
structure FrameStore where
  mem : List Host.Cell
  free : List BlockNo
  deriving DecidableEq, Repr

/-! ## The Pacing Unit -/

/-- The phase of a Gate context (R63). -/
inductive GatePhase where
  | opened
  | shut
  deriving DecidableEq, Repr

/-- The counters of a pacing context by mode (R60 to R66). -/
inductive PacingCounters where
  | openMode
  | interval (countdown : Nat)
  | credit (credit : Nat)
  | gate (phase : GatePhase) (position : Nat) (released : Byte)
  | tiered (tickInWindow sentInWindow windowInEpoch sentInEpoch : Nat)
  deriving DecidableEq, Repr

/-- A pacing context that is not none: Generation seen, and the counters, which tell Mode seen (R58). -/
structure PacingContext where
  generation : Byte
  counters : PacingCounters
  deriving DecidableEq, Repr

/-- The Pacing Unit (03_pacing). -/
structure PacingUnit where
  /-- The Tick Counter (R51). -/
  tickCounter : Word32
  /-- The length in microseconds of the tick period in progress (R50; log 20). -/
  period : Word16
  /-- The admission requests handed over and not yet taken, oldest first (R99, R53; log 7). -/
  requests : List FrameRecord
  /-- The flow queues, head first (R52). -/
  queues : Vector (List QueuedFrame) 256
  /-- The pacing contexts (R58). -/
  contexts : Vector (Option PacingContext) 256
  deriving DecidableEq, Repr

/-! ## The Egress Scheduler -/

/-- A segment's position in its frame (R7). -/
inductive Position where
  | whole
  | first
  | middle
  | last
  deriving DecidableEq, Repr

/-- A segment: its stream, position and payload (R7, R179). -/
structure Segment where
  stream : Level
  position : Position
  payload : List Byte
  deriving DecidableEq, Repr

/-- What line-out is transmitting (R5). -/
inductive InFlight where
  | segment (g : Segment)
  | abort (stream : Level)
  | streamReset
  deriving DecidableEq, Repr

/-- A stall timer (R35 to R38). -/
inductive StallTimer where
  | stopped
  | running (left : Word16)
  /-- A tick has brought the timer to its end and the expiry event is still to be taken (R38; log 8). -/
  | ended
  deriving DecidableEq, Repr

/-- The Egress Scheduler (01_the_egress_scheduler section 1.1). -/
structure EgressScheduler where
  lanes : Vector (List ReleasedFrame) 4
  current : Option SentFrame
  inFlight : Option InFlight
  dropMark : Bool
  /-- The suspension stack, top first (R17). -/
  stack : List SentFrame
  /-- The pending-abort set: bit L for stream L (R19). -/
  pendingAborts : BitVec 4
  /-- The Stream Reset pending mark (R20). -/
  streamReset : Bool
  timers : Vector StallTimer 4
  deriving DecidableEq, Repr

/-! ## The Line-Out Receiver -/

/-- The states of the Line-Out Receiver (08_the_return_path section 8.1). -/
inductive LineOutState where
  | down
  | idle
  | storing
  | draining
  deriving DecidableEq, Repr

/-- The Line-Out Receiver (02 section 2.1). -/
structure LineOutReceiver where
  state : LineOutState
  /-- The Hold Mask: bit L for level L (R30). -/
  holdMask : BitVec 4
  deriving DecidableEq, Repr

/-! ## The Return Merge -/

/-- An entry of the Return Buffer (R152, R153). -/
structure ReturnEntry where
  complete : Bool
  bytes : List Byte
  deriving DecidableEq, Repr

/-- The two sides of the Return Merge (R157). -/
inductive Side where
  | returnSide
  | agentSide
  deriving DecidableEq, Repr

/-- The kinds of frame on line-in transmit (08_the_return_path section 8.2). -/
inductive SentKind where
  | returnFrame
  | response
  | report
  deriving DecidableEq, Repr

/-- The line-in transmitter (08_the_return_path section 8.2): when busy, the kind of the frame and its bytes on the line, frame
check included (R159). -/
inductive Transmitter where
  | down
  | free
  | busy (kind : SentKind) (bytes : List Byte)
  deriving DecidableEq, Repr

/-- The Return Merge (08_the_return_path section 8.2). -/
structure ReturnMerge where
  buffer : List ReturnEntry
  lastServed : Side
  transmitter : Transmitter
  deriving DecidableEq, Repr

/-! ## The Management Agent -/

/-- The eleven statuses, in their encoding's order (07 section 7.4, 10_formats section 10.2). -/
inductive Status where
  | done
  | accepted
  | busy
  | activeBank
  | notReady
  | range
  | full
  | missing
  | conflict
  | malformed
  | noJob
  deriving DecidableEq, Repr

/-- An Inbox entry: the command frame's bytes as received (R132). -/
structure InboxEntry where
  complete : Bool
  bytes : List Byte
  deriving DecidableEq, Repr

/-- A response as built (R137). -/
structure Response where
  label : Word16
  transaction : Word16
  code : Byte
  status : Status
  repeated : Bool
  results : List Byte
  deriving DecidableEq, Repr

/-- An Outbox entry: reserved, or holding its response (R135). -/
inductive OutboxEntry where
  | reserved
  | ready (r : Response)
  deriving DecidableEq, Repr

/-- The agent's execution state (R131): while Restarting, the transaction number of the Restart Traffic and whether the
Line-In Receiver, the Pacing Unit and the Egress Scheduler have taken it (R146, R147; log 9). -/
inductive Execution where
  | free
  | restarting (transaction : Word16) (lineInTaken pacingTaken egressTaken : Bool)
  deriving DecidableEq, Repr

/-- The Last Transaction record (R138). -/
structure LastTransaction where
  transaction : Word16
  code : Byte
  response : Response
  deriving DecidableEq, Repr

/-- The Unmapped Policy (R97). -/
inductive UnmappedPolicy where
  | discard
  | defaultFlow
  deriving DecidableEq, Repr

/-- The Device Settings record (07 section 7.5), its eight settings in table order. -/
structure Settings where
  managementLabel : Word16
  responseLabel : Word16
  tickPeriod : Word16
  reserveFloor : Byte
  stallLimit : Word16
  unmappedPolicy : UnmappedPolicy
  defaultFlow : Flow
  /-- Bit k enables report kind k (10_formats section 10.2). -/
  reportEnable : BitVec 7
  deriving DecidableEq, Repr

/-- The Management Agent (R131). -/
structure ManagementAgent where
  inbox : List InboxEntry
  outbox : List OutboxEntry
  execution : Execution
  last : Option LastTransaction
  settings : Settings
  station : BitVec 4
  deriving DecidableEq, Repr

/-! ## The Counter Bank -/

/-- The 14 global counters, in index order (09 section 9.1). -/
inductive GlobalCounter where
  | lineInFrames
  | checkErrors
  | lengthErrors
  | unmappedDiscards
  | managementFrames
  | inboxOverflows
  | returnDrops
  | storeExhausted
  | segmentsSent
  | preemptions
  | forcedSuspensions
  | stallAborts
  | lineOutAbandons
  | abortsSent
  deriving DecidableEq, Repr

/-- The six counters of a flow, in index order (09 section 9.1). -/
inductive FlowCounter where
  | admitted
  | sent
  | fullDiscards
  | staleDiscards
  | storeDiscards
  | flushed
  deriving DecidableEq, Repr

/-- The Counter Bank (R164, R165). -/
structure CounterBank where
  globals : Vector Word32 14
  flows : Vector (Vector Word32 6) 256
  deriving DecidableEq, Repr

/-! ## The Report Unit -/

/-- The seven report kinds, in their numbers' order (10_formats section 10.2). -/
inductive ReportKind where
  | jobDone
  | stallAbort
  | storeExhausted
  | inboxOverflow
  | checkError
  | unmappedLabel
  | lineState
  deriving DecidableEq, Repr

/-- The two lines, as a LineState report names them (10_formats section 10.2). -/
inductive Line where
  | lineIn
  | lineOut
  deriving DecidableEq, Repr

/-- Why a Check Plan failed, with the failing item (R123). -/
inductive CheckFailure where
  | danglingFlow (label : Word16)
  | reservedLabel (label : Word16)
  | defaultFlowAbsent (flow : Flow)
  deriving DecidableEq, Repr

/-- How a job ended (R125). -/
inductive JobResult where
  | completed
  | failed (why : CheckFailure)
  | aborted
  deriving DecidableEq, Repr

/-- The outcome record of a job: the job as it stood at its end, and the result (R125). -/
structure JobOutcome where
  job : Job
  result : JobResult
  deriving DecidableEq, Repr

/-- A report's kind and First Detail (09 section 9.3). -/
inductive Detail where
  | jobDone (outcome : JobOutcome)
  | stallAbort (level : Level) (flow : Flow)
  | storeExhausted (flow : Flow)
  | inboxOverflow
  | checkError (label : Word16)
  | unmappedLabel (label : Word16)
  | lineState (line : Line)
  deriving DecidableEq, Repr

/-- A pending report record (R169): `first` tells its Kind and its First Detail. -/
structure ReportRecord where
  first : Detail
  occurrences : Nat
  latestTick : Word32
  deriving DecidableEq, Repr

/-! ## The whole part -/

/-- The state of the FP-2604: the queue of waiting commands, the index of the next free value, and the eleven blocks. -/
structure State where
  /-- The commands that are waiting, first in, first out (log 1). -/
  pending : List Instr
  /-- The index of the next free value (log 4); the model's own. -/
  draws : Nat
  lineIn : LineInReceiver
  classifier : Option Classification
  store : FrameStore
  plan : PlanStore
  pacing : PacingUnit
  egress : EgressScheduler
  lineOut : LineOutReceiver
  merge : ReturnMerge
  agent : ManagementAgent
  counters : CounterBank
  /-- The Report Queue, head first (R169). -/
  reports : List ReportRecord
  deriving DecidableEq, Repr

/-! ## Power-up values -/

/-- The descriptor every flow has after power-up: Absent (06 section 6.3). -/
def Descriptor.powerUp : Descriptor where
  present := false
  urgency := 0
  preemptible := false
  preempting := false
  mode := .openMode
  param1 := 0
  param2 := 0
  param3 := 0
  param4 := 0
  depthLimit := 1
  overflow := .dropNew
  maxResidence := 0
  generation := 0

/-- A bank after power-up (R108). -/
def BankContents.powerUp (ready : Bool) : BankContents where
  map := []
  flows := Vector.replicate 256 Descriptor.powerUp
  ready := ready

/-- The Plan Store after power-up: bank A active and Ready, bank B standby and not Ready (R108). -/
def PlanStore.powerUp : PlanStore where
  bankA := BankContents.powerUp true
  bankB := BankContents.powerUp false
  active := .bankA
  job := none

/-- A receiver with no frame in reception, in the given state (R91, R105; log 25). -/
def LineInReceiver.empty (state : LineInState) : LineInReceiver where
  state := state
  byteCount := 0
  bad := false
  holdBack := []
  crc := 0xFFFFFFFF#32
  header := []
  record := none
  truncated := false
  overLength := false
  overflowed := false
  restarted := false

/-- The Frame Store after power-up: every block free, block 0 taken first, nothing written (R77, R89). -/
def FrameStore.powerUp : FrameStore where
  mem := []
  free := List.finRange 1024

/-- The Pacing Unit after power-up (R74). -/
def PacingUnit.powerUp : PacingUnit where
  tickCounter := 0
  period := 100
  requests := []
  queues := Vector.replicate 256 []
  contexts := Vector.replicate 256 none

/-- The Egress Scheduler after power-up (R23). -/
def EgressScheduler.powerUp : EgressScheduler where
  lanes := Vector.replicate 4 []
  current := none
  inFlight := none
  dropMark := false
  stack := []
  pendingAborts := 0
  streamReset := true
  timers := Vector.replicate 4 .stopped

/-- The Device Settings after power-up, the labels built from the station (R131, R141). -/
def Settings.powerUp (station : BitVec 4) : Settings where
  managementLabel := 0xFFF0#16 + station.zeroExtend 16
  responseLabel := 0xFFE0#16 + station.zeroExtend 16
  tickPeriod := 100
  reserveFloor := 32
  stallLimit := 5000
  unmappedPolicy := .discard
  defaultFlow := 0
  reportEnable := 0x7F#7

/-- The Management Agent after power-up (R131). -/
def ManagementAgent.powerUp (station : BitVec 4) : ManagementAgent where
  inbox := []
  outbox := []
  execution := .free
  last := none
  settings := Settings.powerUp station
  station := station

/-- The Counter Bank after power-up (R164). -/
def CounterBank.powerUp : CounterBank where
  globals := Vector.replicate 14 0
  flows := Vector.replicate 256 (Vector.replicate 6 0)

/-- The part as the power-up reset leaves it, with these strap inputs (R131, 10_formats section 10.5): both lines Down. -/
def State.powerUp (straps : BitVec 4) : State where
  pending := []
  draws := 0
  lineIn := LineInReceiver.empty .down
  classifier := none
  store := FrameStore.powerUp
  plan := PlanStore.powerUp
  pacing := PacingUnit.powerUp
  egress := EgressScheduler.powerUp
  lineOut := { state := .down, holdMask := 0 }
  merge := { buffer := [], lastServed := .agentSide, transmitter := .down }
  agent := ManagementAgent.powerUp straps
  counters := CounterBank.powerUp
  reports := []

/-- The part right after reset: the power-up reset has ended with no strap connected, so station 0 (10_formats section 10.5; log 3). -/
def State.reset : State := State.powerUp 0

end Sys2Proof.Machine
end

