-- ==== Sys2Proof/Machine/Flags.lean ====
section
/-! DEFINITION. What the block raises instead of processor flags: the counters of the Counter Bank (R164 to R168) and the
reports of the Report Unit (R169 to R174). An increment and a posting are made in the step that causes them (log 22). -/

namespace Sys2Proof.Machine

open Sys2Proof

/-! ## Counters -/

/-- One increment of a saturating counter (R164). -/
def satInc (c : Word32) : Word32 := if c = 0xFFFFFFFF#32 then c else c + 1

/-- `n` increments of a saturating counter, one after another (R164). -/
def satAdd : Nat → Word32 → Word32
  | 0, c => c
  | n + 1, c => satAdd n (satInc c)

/-- A global counter's index within its group (09 section 9.1). -/
def GlobalCounter.index : GlobalCounter → Fin 14
  | .lineInFrames => 0
  | .checkErrors => 1
  | .lengthErrors => 2
  | .unmappedDiscards => 3
  | .managementFrames => 4
  | .inboxOverflows => 5
  | .returnDrops => 6
  | .storeExhausted => 7
  | .segmentsSent => 8
  | .preemptions => 9
  | .forcedSuspensions => 10
  | .stallAborts => 11
  | .lineOutAbandons => 12
  | .abortsSent => 13

/-- A per-flow counter's index within its group (09 section 9.1). -/
def FlowCounter.index : FlowCounter → Fin 6
  | .admitted => 0
  | .sent => 1
  | .fullDiscards => 2
  | .staleDiscards => 3
  | .storeDiscards => 4
  | .flushed => 5

/-- A global counter as it stands. -/
def CounterBank.read (b : CounterBank) (c : GlobalCounter) : Word32 := b.globals[c.index]

/-- A flow's counter as it stands. -/
def CounterBank.readFlow (b : CounterBank) (f : Flow) (c : FlowCounter) : Word32 := b.flows[f][c.index]

/-- `n` increments of a global counter (R164). -/
def CounterBank.add (b : CounterBank) (c : GlobalCounter) (n : Nat) : CounterBank :=
  { b with globals := b.globals.set c.index (satAdd n b.globals[c.index]) }

/-- `n` increments of a flow's counter (R164, R165). -/
def CounterBank.addFlow (b : CounterBank) (f : Flow) (c : FlowCounter) (n : Nat) : CounterBank :=
  { b with flows := b.flows.set f (b.flows[f].set c.index (satAdd n b.flows[f][c.index])) }

/-- One increment of a global counter, made in the step that causes it (R164). -/
def State.count (s : State) (c : GlobalCounter) : State := { s with counters := s.counters.add c 1 }

/-- One increment of a flow's counter (R164, R165). -/
def State.countFlow (s : State) (f : Flow) (c : FlowCounter) : State :=
  { s with counters := s.counters.addFlow f c 1 }

/-! ## Reports -/

/-- A report kind's number (10_formats section 10.2), which is also its bit in Report Enable. -/
def ReportKind.index : ReportKind → Fin 7
  | .jobDone => 0
  | .stallAbort => 1
  | .storeExhausted => 2
  | .inboxOverflow => 3
  | .checkError => 4
  | .unmappedLabel => 5
  | .lineState => 6

/-- The kind of the report a detail belongs to (09 section 9.3). -/
def Detail.kind : Detail → ReportKind
  | .jobDone _ => .jobDone
  | .stallAbort _ _ => .stallAbort
  | .storeExhausted _ => .storeExhausted
  | .inboxOverflow => .inboxOverflow
  | .checkError _ => .checkError
  | .unmappedLabel _ => .unmappedLabel
  | .lineState _ => .lineState

/-- A record's kind (R169). -/
def ReportRecord.kind (r : ReportRecord) : ReportKind := r.first.kind

/-- Is a record of this kind pending (R170)? -/
def hasReport (q : List ReportRecord) (k : ReportKind) : Bool := q.any (fun r => r.kind == k)

/-- A record that gathers one more posting: Occurrences stops at 65535, First Detail is kept (R170). -/
def ReportRecord.gather (r : ReportRecord) (tick : Word32) : ReportRecord :=
  { r with occurrences := if r.occurrences < 65535 then r.occurrences + 1 else r.occurrences, latestTick := tick }

/-- The Report Queue after a posting of an enabled kind: gathered into the pending record of its kind, or opened at the tail
(R170). -/
def postInto (q : List ReportRecord) (d : Detail) (tick : Word32) : List ReportRecord :=
  if hasReport q d.kind then q.map (fun r => if r.kind == d.kind then r.gather tick else r)
  else q ++ [{ first := d, occurrences := 1, latestTick := tick }]

/-- Is the kind in Report Enable (10_formats section 10.2)? -/
def Settings.enables (g : Settings) (k : ReportKind) : Bool := g.reportEnable.getLsbD k.index

/-- A posting, judged against Report Enable and stamped with the Tick Counter as they stand (R170). -/
def State.post (s : State) (d : Detail) : State :=
  { s with reports := if s.agent.settings.enables d.kind then postInto s.reports d s.pacing.tickCounter else s.reports }

end Sys2Proof.Machine
end

