-- ==== Sys2Proof/Machine/Formats.lean ====
section
/-! DEFINITION. The layouts of 10_formats as the part sends them: byte order, the two checks, segments, control symbols,
responses, reports and the records inside them. -/

namespace Sys2Proof.Machine

open Sys2Proof

/-! ## Byte order: most significant byte first (10_formats) -/

/-- A two-byte field on the line. -/
def be16 (w : Word16) : List Byte := [w.extractLsb' 8 8, w.extractLsb' 0 8]

/-- A four-byte field on the line. -/
def be32 (w : Word32) : List Byte := [w.extractLsb' 24 8, w.extractLsb' 16 8, w.extractLsb' 8 8, w.extractLsb' 0 8]

/-- A number in one byte. -/
def byteOf (n : Nat) : Byte := BitVec.ofNat 8 n

/-- A number in two bytes. -/
def wordOf (n : Nat) : List Byte := be16 (BitVec.ofNat 16 n)

/-- The two-byte field of these bytes. -/
def word16 (hi lo : Byte) : Word16 := hi ++ lo

/-- The four-byte field of these bytes, when there are four. -/
def word32Of : List Byte → Option Word32
  | [a, b, c, d] => some (a ++ b ++ c ++ d)
  | _ => none

/-- Yes is 1 and no is 0 (10_formats section 10.2). -/
def boolByte (b : Bool) : Byte := if b then 1 else 0

/-- A flow index in one byte. -/
def flowByte (f : Flow) : Byte := byteOf f.val

/-- A level in one byte. -/
def levelByte (l : Level) : Byte := byteOf l.val

/-! ## Checks -/

/-- One bit of the CRC-32: generator 0x04C11DB7, most significant bit first (R177). -/
def crc32Bit (c : Word32) : Word32 := if c.msb then (c <<< 1) ^^^ 0x04C11DB7#32 else c <<< 1

/-- One byte into the CRC-32 register (R177). -/
def crc32Byte (c : Word32) (b : Byte) : Word32 := Nat.iterate crc32Bit 8 (c ^^^ (b.zeroExtend 32 <<< 24))

/-- The CRC-32 register after these bytes, from its preset (R177). -/
def crc32Register (bytes : List Byte) : Word32 := bytes.foldl crc32Byte 0xFFFFFFFF#32

/-- The frame check of these bytes: the register inverted (R177). -/
def frameCheck (bytes : List Byte) : Word32 := ~~~ (crc32Register bytes)

/-- A frame's bytes followed by its frame check (R159, R177). -/
def withFrameCheck (bytes : List Byte) : List Byte := bytes ++ be32 (frameCheck bytes)

/-- One bit of the CRC-16: generator 0x1021, most significant bit first (R179). -/
def crc16Bit (c : Word16) : Word16 := if c.msb then (c <<< 1) ^^^ 0x1021#16 else c <<< 1

/-- One byte into the CRC-16 register (R179). -/
def crc16Byte (c : Word16) (b : Byte) : Word16 := Nat.iterate crc16Bit 8 (c ^^^ (b.zeroExtend 16 <<< 8))

/-- The segment check of these bytes: preset 0xFFFF, no final inversion (R179). -/
def segmentCheck (bytes : List Byte) : Word16 := bytes.foldl crc16Byte 0xFFFF#16

/-! ## Line-out -/

/-- A position's encoding (10_formats section 10.3). -/
def Position.code : Position → BitVec 2
  | .whole => 0
  | .first => 1
  | .middle => 2
  | .last => 3

/-- The two header bytes of a segment (10_formats section 10.3). -/
def Segment.headerBytes (g : Segment) : List Byte :=
  [BitVec.ofNat 2 g.stream.val ++ g.position.code ++ 0#4, 0#2 ++ BitVec.ofNat 6 (g.payload.length - 1)]

/-- A segment between its delimiters: header, payload, segment check (R179). -/
def Segment.bytes (g : Segment) : List Byte :=
  g.headerBytes ++ g.payload ++ be16 (segmentCheck (g.headerBytes ++ g.payload))

/-- The argument byte of an Abort for a stream (10_formats section 10.4). -/
def abortArgument (stream : Level) : Byte := 0b101101#6 ++ BitVec.ofNat 2 stream.val

/-- The argument byte of a Stream Reset (10_formats section 10.4). -/
def streamResetArgument : Byte := 0x5A

/-- What line-out carries for the thing in flight: a segment's bytes between delimiters, or a control symbol's argument
byte after its control code (10_formats sections 10.3 and 10.4). -/
def InFlight.bytes : InFlight → List Byte
  | .segment g => g.bytes
  | .abort stream => [abortArgument stream]
  | .streamReset => [streamResetArgument]

/-! ## Records inside management payloads -/

/-- A status code (10_formats section 10.2). -/
def Status.code : Status → Byte
  | .done => 0
  | .accepted => 1
  | .busy => 2
  | .activeBank => 3
  | .notReady => 4
  | .range => 5
  | .full => 6
  | .missing => 7
  | .conflict => 8
  | .malformed => 9
  | .noJob => 10

/-- A bank's byte (10_formats section 10.2). -/
def Bank.byte : Bank → Byte
  | .bankA => 0
  | .bankB => 1

/-- A pacing mode's byte (10_formats section 10.2). -/
def PacingMode.byte : PacingMode → Byte
  | .openMode => 0
  | .interval => 1
  | .credit => 2
  | .gate => 3
  | .tiered => 4

/-- An overflow action's byte (10_formats section 10.2). -/
def OverflowAction.byte : OverflowAction → Byte
  | .dropNew => 0
  | .dropOldest => 1

/-- The 18 bytes of a descriptor record (10_formats section 10.2). -/
def Descriptor.bytes (d : Descriptor) : List Byte :=
  [boolByte d.present, levelByte d.urgency, boolByte d.preemptible, boolByte d.preempting, d.mode.byte]
    ++ be16 d.param1 ++ be16 d.param2 ++ be16 d.param3 ++ be16 d.param4
    ++ [d.depthLimit, d.overflow.byte] ++ be16 d.maxResidence ++ [d.generation]

/-- An unmapped policy's byte (10_formats section 10.2). -/
def UnmappedPolicy.byte : UnmappedPolicy → Byte
  | .discard => 0
  | .defaultFlow => 1

/-- The 12 bytes of the settings record (10_formats section 10.2). -/
def Settings.bytes (g : Settings) : List Byte :=
  be16 g.managementLabel ++ be16 g.responseLabel ++ be16 g.tickPeriod ++ [g.reserveFloor] ++ be16 g.stallLimit
    ++ [g.unmappedPolicy.byte, flowByte g.defaultFlow, g.reportEnable.zeroExtend 8]

/-- A job kind's byte, in Read Status and in a JobDone detail (10_formats section 10.2; log 15). -/
def JobKind.byte : JobKind → Byte
  | .copy => 1
  | .check => 2

/-- A job phase's byte, in Read Status and in a JobDone detail (10_formats section 10.2; log 15). -/
def JobPhase.byte : JobPhase → Byte
  | .map => 0
  | .flows => 1

/-- A report kind's number in one byte (10_formats section 10.2). -/
def ReportKind.byte (k : ReportKind) : Byte := byteOf k.index.val

/-! ## Responses and reports -/

/-- A response frame's bytes: header, Kind 0x02, the echoes, status, Repeat, results (R137, 10_formats section 10.2). -/
def Response.bytes (r : Response) : List Byte :=
  be16 r.label ++ [0, 0] ++ [0x02] ++ be16 r.transaction ++ [r.code, r.status.code, boolByte r.repeated] ++ r.results

/-- The outcome byte of a JobDone detail (10_formats section 10.2). -/
def JobResult.byte : JobResult → Byte
  | .completed => 0
  | .failed _ => 1
  | .aborted => 2

/-- The reason byte of a JobDone detail (10_formats section 10.2). -/
def JobResult.reasonByte : JobResult → Byte
  | .completed => 0
  | .failed (.danglingFlow _) => 1
  | .failed (.reservedLabel _) => 2
  | .failed (.defaultFlowAbsent _) => 3
  | .aborted => 0

/-- The failing item of a JobDone detail: the label, or the flow index in the low byte, 0 when none (10_formats section 10.2). -/
def JobResult.item : JobResult → Word16
  | .completed => 0
  | .failed (.danglingFlow l) => l
  | .failed (.reservedLabel l) => l
  | .failed (.defaultFlowAbsent f) => BitVec.ofNat 16 f.val
  | .aborted => 0

/-- The bytes of a First Detail (10_formats section 10.2; a job's kind and phase: log 15). -/
def Detail.bytes : Detail → List Byte
  | .jobDone o =>
    [o.job.kind.byte, o.job.bank.byte] ++ be16 o.job.transaction ++ [o.result.byte, o.result.reasonByte] ++ be16 o.result.item
      ++ [o.job.phase.byte] ++ wordOf o.job.progress
  | .stallAbort level flow => [levelByte level, flowByte flow]
  | .storeExhausted flow => [flowByte flow]
  | .inboxOverflow => []
  | .checkError label => be16 label
  | .unmappedLabel label => be16 label
  | .lineState .lineIn => [0]
  | .lineState .lineOut => [1]

/-- A report frame's bytes with this label: Kind 0x03, report kind, Occurrences, Latest Tick, detail (R149, 10_formats
section 10.2). -/
def ReportRecord.bytes (r : ReportRecord) (label : Word16) : List Byte :=
  be16 label ++ [0, 0] ++ [0x03, r.kind.byte] ++ wordOf r.occurrences ++ be32 r.latestTick
    ++ [byteOf r.first.bytes.length] ++ r.first.bytes

end Sys2Proof.Machine
end

