-- ==== Sys2Proof/Machine/Operands.lean ====
section
/-! DEFINITION. What the part reads from the links: the argument of a Hold symbol, the fields of an Inbox entry, the operands of
the management commands, and the checks on the records they carry (R110, R140, R143, R166, R178). -/

namespace Sys2Proof.Machine

open Sys2Proof

/-! ## Control symbols -/

/-- The set of levels a Hold symbol carries, when its argument can be decoded: bits 7 to 4 the complement of bits 3 to 0 (R180,
10_formats section 10.4). -/
def decodeHold : SymbolArgument → Option (BitVec 4)
  | .byte b => if b.extractLsb' 4 4 = ~~~ (b.extractLsb' 0 4) then some (b.extractLsb' 0 4) else none
  | .notAByte => none

/-! ## Inbox entries (R132, 10_formats section 10.2) -/

/-- The entry's Kind byte. -/
def InboxEntry.kind (e : InboxEntry) : Byte := e.bytes.getD 4 0

/-- The entry's Transaction Number. -/
def InboxEntry.transaction (e : InboxEntry) : Word16 := word16 (e.bytes.getD 5 0) (e.bytes.getD 6 0)

/-- The entry's Command Code. -/
def InboxEntry.code (e : InboxEntry) : Byte := e.bytes.getD 7 0

/-- The entry's operand bytes. -/
def InboxEntry.operands (e : InboxEntry) : List Byte := e.bytes.drop 8

/-- The entry's operand length: its Length minus 8 (R132). -/
def InboxEntry.operandLength (e : InboxEntry) : Nat := e.bytes.length - 8

/-- The entry is a command of this code: Kind Command, and the code (R178). -/
def InboxEntry.isCommand (code : Byte) (e : InboxEntry) : Bool := e.kind == 0x01#8 && e.code == code

/-- The entry's Kind is not Command, or its code is not one of the twenty of the catalogue (R140, R178). -/
def InboxEntry.isUnknown (e : InboxEntry) : Bool :=
  e.kind != 0x01#8 || !(1 ≤ e.code.toNat && e.code.toNat ≤ 0x14)

/-! ## Operand fields -/

/-- The byte with this number among the operands. -/
def operandByte (ops : List Byte) (i : Nat) : Byte := ops.getD i 0

/-- The two-byte field at this place among the operands. -/
def operandWord (ops : List Byte) (i : Nat) : Word16 := word16 (operandByte ops i) (operandByte ops (i + 1))

/-- A flow index byte names a flow whatever it holds (10_formats section 10.2). -/
def operandFlow (ops : List Byte) (i : Nat) : Flow := (operandByte ops i).toFin

/-- The bank a byte names, if it names one (R178). -/
def bankOf (b : Byte) : Option Bank := if b = 0 then some .bankA else if b = 1 then some .bankB else none

/-- The bank named by the first operand byte. -/
def operandBank (ops : List Byte) : Option Bank := bankOf (operandByte ops 0)

/-! ## The descriptor record (10_formats section 10.2) -/

/-- The thirteen fields of a descriptor record as received, not yet judged. -/
structure DescriptorRecord where
  present : Byte
  urgency : Byte
  preemptible : Byte
  preempting : Byte
  mode : Byte
  param1 : Word16
  param2 : Word16
  param3 : Word16
  param4 : Word16
  depthLimit : Byte
  overflow : Byte
  maxResidence : Word16
  generation : Byte
  deriving DecidableEq, Repr

/-- The record in the operands from this byte on. -/
def operandDescriptor (ops : List Byte) (i : Nat) : DescriptorRecord where
  present := operandByte ops i
  urgency := operandByte ops (i + 1)
  preemptible := operandByte ops (i + 2)
  preempting := operandByte ops (i + 3)
  mode := operandByte ops (i + 4)
  param1 := operandWord ops (i + 5)
  param2 := operandWord ops (i + 7)
  param3 := operandWord ops (i + 9)
  param4 := operandWord ops (i + 11)
  depthLimit := operandByte ops (i + 13)
  overflow := operandByte ops (i + 14)
  maxResidence := operandWord ops (i + 15)
  generation := operandByte ops (i + 17)

/-- A stored descriptor as its record. -/
def Descriptor.record (d : Descriptor) : DescriptorRecord where
  present := boolByte d.present
  urgency := levelByte d.urgency
  preemptible := boolByte d.preemptible
  preempting := boolByte d.preempting
  mode := d.mode.byte
  param1 := d.param1
  param2 := d.param2
  param3 := d.param3
  param4 := d.param4
  depthLimit := d.depthLimit
  overflow := d.overflow.byte
  maxResidence := d.maxResidence
  generation := d.generation

/-- The number lies from `lo` to `hi`, both included (00_scope section 3.3). -/
def inRange (lo hi n : Nat) : Bool := lo ≤ n && n ≤ hi

/-- The first parameter out of its mode's range, by field number 5 to 8, for the parameters the mode uses (R110). -/
def DescriptorRecord.badParameter (r : DescriptorRecord) : Option Nat :=
  match r.mode.toNat with
  | 1 => if !inRange 1 65535 r.param1.toNat then some 5 else none
  | 2 =>
    if !inRange 1 64 r.param1.toNat then some 5
    else if !inRange 16 4096 r.param2.toNat then some 6 else none
  | 3 =>
    if !inRange 1 65535 r.param1.toNat then some 5
    else if !inRange 1 65535 r.param2.toNat then some 6
    else if !inRange 0 255 r.param3.toNat then some 7 else none
  | 4 =>
    if !inRange 1 65535 r.param1.toNat then some 5
    else if !inRange 1 255 r.param2.toNat then some 6
    else if !inRange 1 255 r.param3.toNat then some 7
    else if !inRange 1 65535 r.param4.toNat then some 8 else none
  | _ => none

/-- The first out-of-range field in table order, by its field number, if any (R110, R116, R178). -/
def DescriptorRecord.badField (r : DescriptorRecord) : Option Nat :=
  if !inRange 0 1 r.present.toNat then some 0
  else if !inRange 0 3 r.urgency.toNat then some 1
  else if !inRange 0 1 r.preemptible.toNat then some 2
  else if !inRange 0 1 r.preempting.toNat then some 3
  else if !inRange 0 4 r.mode.toNat then some 4
  else match r.badParameter with
    | some n => some n
    | none =>
      if !inRange 1 64 r.depthLimit.toNat then some 9
      else if !inRange 0 1 r.overflow.toNat then some 10 else none

/-- The pacing mode a byte names; the last encoding for a byte that names none, which no valid record holds. -/
def pacingModeOf (b : Byte) : PacingMode :=
  match b.toNat with
  | 0 => .openMode
  | 1 => .interval
  | 2 => .credit
  | 3 => .gate
  | _ => .tiered

/-- The descriptor a record with no out-of-range field stands for. -/
def DescriptorRecord.toDescriptor (r : DescriptorRecord) : Descriptor where
  present := r.present == 1
  urgency := Fin.ofNat 4 r.urgency.toNat
  preemptible := r.preemptible == 1
  preempting := r.preempting == 1
  mode := pacingModeOf r.mode
  param1 := r.param1
  param2 := r.param2
  param3 := r.param3
  param4 := r.param4
  depthLimit := r.depthLimit
  overflow := if r.overflow = 1 then .dropOldest else .dropNew
  maxResidence := r.maxResidence
  generation := r.generation

/-- The resulting record of a Modify Flow: the selected fields from `new`, the others from `old`; bit n selects field number n
(R117, 10_formats section 10.2). -/
def DescriptorRecord.select (old new : DescriptorRecord) (sel : Word16) : DescriptorRecord where
  present := if sel.getLsbD 0 then new.present else old.present
  urgency := if sel.getLsbD 1 then new.urgency else old.urgency
  preemptible := if sel.getLsbD 2 then new.preemptible else old.preemptible
  preempting := if sel.getLsbD 3 then new.preempting else old.preempting
  mode := if sel.getLsbD 4 then new.mode else old.mode
  param1 := if sel.getLsbD 5 then new.param1 else old.param1
  param2 := if sel.getLsbD 6 then new.param2 else old.param2
  param3 := if sel.getLsbD 7 then new.param3 else old.param3
  param4 := if sel.getLsbD 8 then new.param4 else old.param4
  depthLimit := if sel.getLsbD 9 then new.depthLimit else old.depthLimit
  overflow := if sel.getLsbD 10 then new.overflow else old.overflow
  maxResidence := if sel.getLsbD 11 then new.maxResidence else old.maxResidence
  generation := if sel.getLsbD 12 then new.generation else old.generation

/-! ## The settings record (10_formats section 10.2) -/

/-- The eight settings of a settings record as received, not yet judged. -/
structure SettingsRecord where
  managementLabel : Word16
  responseLabel : Word16
  tickPeriod : Word16
  reserveFloor : Byte
  stallLimit : Word16
  unmappedPolicy : Byte
  defaultFlow : Byte
  reportEnable : Byte
  deriving DecidableEq, Repr

/-- The settings record in the operands. -/
def operandSettings (ops : List Byte) : SettingsRecord where
  managementLabel := operandWord ops 0
  responseLabel := operandWord ops 2
  tickPeriod := operandWord ops 4
  reserveFloor := operandByte ops 6
  stallLimit := operandWord ops 7
  unmappedPolicy := operandByte ops 9
  defaultFlow := operandByte ops 10
  reportEnable := operandByte ops 11

/-- The first out-of-range setting in table order, by its number, if any (R143, R178). -/
def SettingsRecord.badSetting (r : SettingsRecord) : Option Nat :=
  if !inRange 1 4096 r.tickPeriod.toNat then some 2
  else if !inRange 0 128 r.reserveFloor.toNat then some 3
  else if !inRange 0 1 r.unmappedPolicy.toNat then some 5
  else if r.reportEnable.getLsbD 7 then some 7 else none

/-- The settings a record with no out-of-range setting stands for. -/
def SettingsRecord.toSettings (r : SettingsRecord) : Settings where
  managementLabel := r.managementLabel
  responseLabel := r.responseLabel
  tickPeriod := r.tickPeriod
  reserveFloor := r.reserveFloor
  stallLimit := r.stallLimit
  unmappedPolicy := if r.unmappedPolicy = 1 then .defaultFlow else .discard
  defaultFlow := r.defaultFlow.toFin
  reportEnable := r.reportEnable.extractLsb' 0 7

/-! ## The counter commands' range (R166) -/

/-- The counters a counter command names, when its group, First and Count are in range: `Sum.inl` the first index and the number of
global counters, `Sum.inr` the first flow and the number of flows (R166, R178). -/
def counterRange (group first count : Byte) : Option (Nat × Nat ⊕ Nat × Nat) :=
  if group = 0 then
    if inRange 0 13 first.toNat && inRange 1 14 count.toNat && first.toNat + count.toNat ≤ 14 then
      some (.inl (first.toNat, count.toNat))
    else none
  else if group = 1 then
    if inRange 1 8 count.toNat && first.toNat + count.toNat ≤ 256 then some (.inr (first.toNat, count.toNat)) else none
  else none

end Sys2Proof.Machine
end

