-- ==== Sys2Proof/Machine/Ops.lean ====
section
/-! DEFINITION. The shared operations of the blocks: the Frame Store's memory and free list (R76, R77, R81), the plan's lookups
(R108, R109), the settings, and the two lines' states. -/

namespace Sys2Proof.Machine

open Sys2Proof

/-! ## The Frame Store's bytes -/

/-- The address of a byte: 64 bytes to a block (04 section 4.1). -/
def blockAddress (b : BlockNo) (offset : Nat) : Nat := 64 * b.val + offset

/-- The byte at an address, if one has been written there since power-up. -/
def memRead : List Host.Cell → Nat → Option Byte
  | [], _ => none
  | (a, v) :: rest, x => if a = x then some v else memRead rest x

/-- The memory with this byte at this address, in the one canonical form: addresses strictly rising. -/
def memWrite : List Host.Cell → Nat → Byte → List Host.Cell
  | [], x, w => [(x, w)]
  | (a, v) :: rest, x, w =>
    if x < a then (x, w) :: (a, v) :: rest
    else if x = a then (x, w) :: rest
    else (a, v) :: memWrite rest x w

/-- Bytes written one after another from an address on. -/
def memWriteAll : List Host.Cell → Nat → List Byte → List Host.Cell
  | m, _, [] => m
  | m, x, w :: ws => memWriteAll (memWrite m x w) (x + 1) ws

/-- Every address of the list is above `lo`, and the addresses rise strictly from there. -/
def risesFrom : Nat → List Host.Cell → Bool
  | _, [] => true
  | lo, (a, _) :: rest => lo < a && risesFrom a rest

/-- The canonical form: addresses strictly rising, every one inside the store's 65,536 bytes (04). -/
def memWf : List Host.Cell → Bool
  | [] => true
  | (a, v) :: rest => risesFrom a rest && ((a, v) :: rest).all (fun c => c.1 < 65536)

/-- A byte of the store: what was written there, or the undefined contents of power-up (04 section 4.1; log 6). -/
def FrameStore.byteAt (st : FrameStore) (a : Nat) : Byte := (memRead st.mem a).getD (Config.undefinedByte a)

/-- Byte `i` of the frame with this chain (R7): byte i % 64 of block i / 64. A chain has the block whenever the frame has the
byte; past the chain there is no address, and the value is free. -/
def FrameStore.frameByte (st : FrameStore) (chain : List BlockNo) (i : Nat) : Byte :=
  match chain[i / 64]? with
  | some b => st.byteAt (blockAddress b (i % 64))
  | none => Config.undefinedByte (65536 + i)

/-- The store with these bytes written into a block from an offset on. -/
def FrameStore.write (st : FrameStore) (b : BlockNo) (offset : Nat) (bytes : List Byte) : FrameStore :=
  { st with mem := memWriteAll st.mem (blockAddress b offset) bytes }

/-! ## The free list -/

/-- The free count (R76). -/
def FrameStore.freeCount (st : FrameStore) : Nat := st.free.length

/-- An allocation request: granted to class 0 while a block is free, to class 1 while more blocks than the Reserve Floor are free
(R81); the block given is the one most recently put into the list (R77). -/
def FrameStore.allocate (st : FrameStore) (cls : ReserveClass) (floor : Nat) : Option (BlockNo × FrameStore) :=
  match st.free with
  | [] => none
  | b :: rest =>
    match cls with
    | .class0 => some (b, { st with free := rest })
    | .class1 => if floor < (b :: rest).length then some (b, { st with free := rest }) else none

/-- A chain returned whole: its blocks go into the free list in chain order, so its last block is the first to be taken again
(R77, R85). -/
def FrameStore.returnChain (st : FrameStore) (chain : List BlockNo) : FrameStore :=
  { st with free := chain.reverse ++ st.free }

/-- A chain returned to the part's store (R85). -/
def State.returnChain (s : State) (chain : List BlockNo) : State := { s with store := s.store.returnChain chain }

/-- Several chains returned one after another, each as one return. -/
def State.returnChains (s : State) (chains : List (List BlockNo)) : State :=
  { s with store := chains.foldl FrameStore.returnChain s.store }

/-- The number of blocks a frame of this length occupies: ceiling(length / 64) (00_scope section 3.1). -/
def blocksOf (length : Nat) : Nat := (length + 63) / 64

/-! ## The plan -/

/-- The other bank. -/
def Bank.other : Bank → Bank
  | .bankA => .bankB
  | .bankB => .bankA

/-- A bank's contents. -/
def PlanStore.bank (p : PlanStore) : Bank → BankContents
  | .bankA => p.bankA
  | .bankB => p.bankB

/-- The plan with one bank's contents replaced. -/
def PlanStore.setBank (p : PlanStore) (b : Bank) (c : BankContents) : PlanStore :=
  match b with
  | .bankA => { p with bankA := c }
  | .bankB => { p with bankB := c }

/-- The active bank's contents (R108). -/
def PlanStore.activeBank (p : PlanStore) : BankContents := p.bank p.active

/-- A flow's descriptor in a bank. -/
def BankContents.descriptor (c : BankContents) (f : Flow) : Descriptor := c.flows[f]

/-- The active descriptor of a flow (00_scope section 3.4). -/
def State.activeDescriptor (s : State) (f : Flow) : Descriptor := s.plan.activeBank.descriptor f

/-- The flow a Label Map names for a label, if the map holds the label (R109). -/
def mapLookup : List MapEntry → Word16 → Option Flow
  | [], _ => none
  | e :: rest, l => if e.label = l then some e.flow else mapLookup rest l

/-- The map with an entry at the place its label gives, or with the entry's flow replaced (R109, R114). -/
def mapInsert : List MapEntry → Word16 → Flow → List MapEntry
  | [], l, f => [{ label := l, flow := f }]
  | e :: rest, l, f =>
    if l.toNat < e.label.toNat then { label := l, flow := f } :: e :: rest
    else if l = e.label then { label := l, flow := f } :: rest
    else e :: mapInsert rest l f

/-- The map without the entry of a label (R115). -/
def mapRemove (m : List MapEntry) (l : Word16) : List MapEntry := m.filter (fun e => e.label != l)

/-- The map's labels rise strictly, so no label stands twice (R109). -/
def mapSorted (m : List MapEntry) : Bool := decide (m.Pairwise (fun x y => x.label.toNat < y.label.toNat))

/-! ## Lines and settings -/

/-- The Device Settings in force. -/
def State.settings (s : State) : Settings := s.agent.settings

/-- Line-in is Up (R91). -/
def LineInReceiver.up (r : LineInReceiver) : Bool := r.state != .down

/-- Line-out is Up (R29). -/
def LineOutReceiver.up (r : LineOutReceiver) : Bool := r.state != .down

/-- Is the level in the Hold Mask (R30)? -/
def held (mask : BitVec 4) (l : Level) : Bool := mask.getLsbD l.val

/-- The set with a level added (R19). -/
def setLevel (m : BitVec 4) (l : Level) : BitVec 4 := m ||| BitVec.twoPow 4 l.val

/-- The set with a level taken out (R19). -/
def clearLevel (m : BitVec 4) (l : Level) : BitVec 4 := m &&& ~~~ (BitVec.twoPow 4 l.val)

end Sys2Proof.Machine
end

