-- ==== Sys2Proof/Machine/Egress.lean ====
section
/-! DEFINITION. The Egress Scheduler: segments, the choice at a decision event, completions, stall timers, Restart Traffic in
the lanes and the slot (01_the_egress_scheduler, 02_hold_stalls_and_line_out_failure). -/

namespace Sys2Proof.Machine

open Sys2Proof

/-! ## Segments (R7) -/

/-- The position of segment `k` of a frame of `n` blocks (R7). -/
def positionOf (n k : Nat) : Position :=
  if n ≤ 1 then .whole else if k = 0 then .first else if k < n - 1 then .middle else .last

/-- A Whole or Last segment is its frame's final one (R9). -/
def Position.final : Position → Bool
  | .whole => true
  | .first => false
  | .middle => false
  | .last => true

/-- The number of bytes segment `k` of a frame of this length carries: 64, or what is left (R7). -/
def payloadLength (length k : Nat) : Nat := min 64 (length - 64 * k)

/-- Segment `k` of a released frame, formed from block `k` of its chain (R7, R179; log 21). -/
def formSegment (st : FrameStore) (f : ReleasedFrame) (k : Nat) : Segment where
  stream := f.level
  position := positionOf (blocksOf f.length) k
  payload := (List.range (payloadLength f.length k)).map (fun j => st.frameByte f.chain (64 * k + j))

/-! ## The choice (R12 to R16) -/

/-- The scheduler with this frame current and its next segment, number Segments sent, in flight (R13, R16). -/
def EgressScheduler.send (e : EgressScheduler) (st : FrameStore) (c : SentFrame) : EgressScheduler :=
  { e with current := some c, inFlight := some (.segment (formSegment st c.toReleasedFrame c.segmentsSent)) }

/-- The head of a lane started: it leaves the lane and becomes current with Segments sent 0 and the Drop mark clear, its segment
0 in flight (R6). -/
def EgressScheduler.startLane (e : EgressScheduler) (st : FrameStore) (l : Level) : EgressScheduler :=
  match e.lanes[l] with
  | [] => e
  | f :: rest =>
    { e with lanes := e.lanes.set l rest, dropMark := false }.send st { toReleasedFrame := f, segmentsSent := 0 }

/-- The bound of R15: the level of the stack's top, or 4. -/
def EgressScheduler.bound (e : EgressScheduler) : Nat :=
  match e.stack with
  | [] => 4
  | t :: _ => t.level.val

/-- The most urgent unheld lane below a bound that has a head satisfying `p` (R14, R15). -/
def EgressScheduler.urgentLane (e : EgressScheduler) (mask : BitVec 4) (bound : Nat) (p : ReleasedFrame → Bool) : Option Level :=
  allLevels.find? (fun l => decide (l.val < bound) && !held mask l && (e.lanes[l].head?.any p))

/-- The choice with no current frame: the most urgent unheld lane below the bound starts its head; else the unheld top of the
stack is resumed; else nothing (R15, R16). -/
def EgressScheduler.chooseIdle (e : EgressScheduler) (st : FrameStore) (mask : BitVec 4) : EgressScheduler :=
  match e.urgentLane mask e.bound (fun _ => true) with
  | some l => e.startLane st l
  | none =>
    match e.stack with
    | [] => e
    | t :: rest => if held mask t.level then e else { e with stack := rest }.send st t

/-- What a choice leaves: the scheduler, and the counter it increments, if any. -/
structure Choice where
  egress : EgressScheduler
  counted : Option GlobalCounter

/-- The current frame pushed onto the suspension stack with its Segments sent (R13, R14). -/
def EgressScheduler.push (e : EgressScheduler) (c : SentFrame) : EgressScheduler :=
  { e with current := none, stack := c :: e.stack }

/-- The choice with a current frame: a forced suspension when its level is held (R13), a preemption when its flag and a
Preempting head allow it (R14), else its next segment. -/
def EgressScheduler.chooseCurrent (e : EgressScheduler) (st : FrameStore) (mask : BitVec 4) (c : SentFrame) : Choice :=
  if held mask c.level then { egress := (e.push c).chooseIdle st mask, counted := some .forcedSuspensions }
  else if c.preemptible then
    match e.urgentLane mask c.level.val (fun f => f.preempting) with
    | some l => { egress := (e.push c).startLane st l, counted := some .preemptions }
    | none => { egress := e.send st c, counted := none }
  else { egress := e.send st c, counted := none }

/-- The numerically lowest stream of the pending-abort set (R12). -/
def lowestStream (m : BitVec 4) : Option Level := allLevels.find? (fun l => held m l)

/-- The choice at a decision event: the Stream Reset, the lowest pending Abort, or a segment (R12). -/
def EgressScheduler.choose (e : EgressScheduler) (st : FrameStore) (mask : BitVec 4) : Choice :=
  if e.streamReset then { egress := { e with streamReset := false, inFlight := some .streamReset }, counted := none }
  else match lowestStream e.pendingAborts with
    | some l =>
      { egress := { e with pendingAborts := clearLevel e.pendingAborts l, inFlight := some (.abort l) }, counted := none }
    | none =>
      match e.current with
      | some c => e.chooseCurrent st mask c
      | none => { egress := e.chooseIdle st mask, counted := none }

/-- An increment of a global counter, if one is named (R164). -/
def CounterBank.addSome (b : CounterBank) : Option GlobalCounter → CounterBank
  | none => b
  | some c => b.add c 1

/-- What a decision event leaves: a choice when nothing is in flight and line-out is Up, else nothing changed (R11, R22). -/
def EgressScheduler.atDecision (e : EgressScheduler) (st : FrameStore) (o : LineOutReceiver) : Choice :=
  if e.inFlight.isNone && o.up then e.choose st o.holdMask else { egress := e, counted := none }

/-- A decision event: the scheduler as the choice leaves it, and its counter (R11). -/
def State.decisionEvent (s : State) : State :=
  let c := s.egress.atDecision s.store s.lineOut
  { s with egress := c.egress, counters := s.counters.addSome c.counted }

/-- Released frames entering their lanes together, as one lane insertion; an insertion of none is no insertion (R1, R3, R69). -/
def State.insertLanes (s : State) (released : List ReleasedFrame) : State :=
  if released.isEmpty then s
  else
    { s with egress := { s.egress with
        lanes := Vector.ofFn (fun l : Level => s.egress.lanes[l] ++ released.filter (fun f : ReleasedFrame => f.level == l)) } }.decisionEvent

/-! ## Completions -/

/-- The slot emptied: no current frame, nothing in flight, the Drop mark clear. -/
def EgressScheduler.clearSlot (e : EgressScheduler) : EgressScheduler :=
  { e with current := none, inFlight := none, dropMark := false }

/-- The completion of a segment `g` of the current frame `c`, before the choice: dropped (R26), sent in full (R9), or
advanced (R8). -/
def State.completeSegment (s : State) (g : Segment) (c : SentFrame) : State :=
  if s.egress.dropMark then
    ({ s with egress := s.egress.clearSlot }.returnChain c.chain).count .segmentsSent
  else if g.position.final then
    (({ s with egress := s.egress.clearSlot }.returnChain c.chain).count .segmentsSent).countFlow c.flow .sent
  else
    { s with egress := { s.egress with current := some { c with segmentsSent := c.segmentsSent + 1 }, inFlight := none } }.count
      .segmentsSent

/-- SEGMENT_COMPLETION (R8, R9, R26): the segment in flight completes, and a choice is made. With no segment in flight there is
no such event (log 2). -/
def execSegmentCompletion (s : State) : Host.Outcome State Fault Refusal :=
  .next (match s.egress.inFlight, s.egress.current with
    | some (.segment g), some c => (s.completeSegment g c).decisionEvent
    | _, _ => s)

/-- CONTROL_SYMBOL_COMPLETION (R10, R42, R43): the symbol in flight completes, an Abort counts in AbortsSent, and a choice is
made. With no symbol in flight there is no such event (log 2). -/
def execControlSymbolCompletion (s : State) : Host.Outcome State Fault Refusal :=
  .next (match s.egress.inFlight with
    | some (.abort _) => ({ s with egress := { s.egress with inFlight := none } }.count .abortsSent).decisionEvent
    | some .streamReset => { s with egress := { s.egress with inFlight := none } }.decisionEvent
    | _ => s)

/-! ## Stall timers (R35 to R41) -/

/-- A segment that ends its frame is in flight (R35). -/
def EgressScheduler.finalInFlight (e : EgressScheduler) : Bool :=
  match e.inFlight with
  | some (.segment g) => g.position.final
  | _ => false

/-- A segment is in flight. -/
def EgressScheduler.segmentInFlight (e : EgressScheduler) : Bool :=
  match e.inFlight with
  | some (.segment _) => true
  | _ => false

/-- The current frame when it is a partial frame: not Drop-marked, its final segment not in flight (R35). -/
def EgressScheduler.partialCurrent (e : EgressScheduler) : Option SentFrame :=
  if e.dropMark || e.finalInFlight then none else e.current

/-- A partial frame of this level exists, in the slot or on the stack (R35). -/
def EgressScheduler.hasPartial (e : EgressScheduler) (l : Level) : Bool :=
  e.partialCurrent.any (fun c : SentFrame => c.level == l) || e.stack.any (fun c : SentFrame => c.level == l)

/-- A level's timer at a change of the Hold Mask: started when the level becomes held and has a partial frame and the Stall
Limit is above 0; stopped when it is released; else unchanged (R36, R37). -/
def EgressScheduler.timerAtHold (e : EgressScheduler) (old new : BitVec 4) (limit : Word16) (l : Level) : StallTimer :=
  if held new l then
    if !held old l && e.hasPartial l && limit != 0 then .running limit else e.timers[l]
  else .stopped

/-- The four timers at a change of the Hold Mask (R36, R37). -/
def EgressScheduler.holdTimers (e : EgressScheduler) (old new : BitVec 4) (limit : Word16) : EgressScheduler :=
  { e with timers := Vector.ofFn (e.timerAtHold old new limit) }

/-- A timer at a tick: two or more ticks left lose one; one tick left comes to its end, and its expiry is an event of its own
(R38; log 8). -/
def StallTimer.tick : StallTimer → StallTimer
  | .stopped => .stopped
  | .running left => if left.toNat ≤ 1 then .ended else .running (left - 1)
  | .ended => .ended

/-- The four timers at a tick (R38). -/
def EgressScheduler.tickTimers (e : EgressScheduler) : EgressScheduler := { e with timers := e.timers.map StallTimer.tick }

/-- What every give-up at a stall expiry does: stream pending, StallAborts, the report, and a decision event (R39, R40). -/
def State.stallAbort (s : State) (l : Level) (f : Flow) : State :=
  (({ s with egress := { s.egress with pendingAborts := setLevel s.egress.pendingAborts l } }.count .stallAborts).post
    (.stallAbort l f)).decisionEvent

/-- The expiry of a level's timer: its partial frame on the stack is removed (R39), or in the slot is Drop-marked while its
segment is in flight, and discarded at once otherwise (R40). The timer is stopped. -/
def State.expireTimer (s : State) (l : Level) : State :=
  let e : EgressScheduler := { s.egress with timers := s.egress.timers.set l .stopped }
  match e.stack.find? (fun c : SentFrame => c.level == l) with
  | some c =>
    ({ s with egress := { e with stack := e.stack.filter (fun c : SentFrame => c.level != l) } }.returnChains
      ((e.stack.filter (fun c : SentFrame => c.level == l)).map (fun c : SentFrame => c.chain))).stallAbort l c.flow
  | none =>
    match e.partialCurrent with
    | some c =>
      if c.level = l then
        if e.segmentInFlight then { s with egress := { e with dropMark := true } }.stallAbort l c.flow
        else ({ s with egress := { e with current := none } }.returnChain c.chain).stallAbort l c.flow
      else { s with egress := e }
    | none => { s with egress := e }

/-- STALL_TIMER_EXPIRY (R38 to R41): the expiry of a timer a tick has brought to its end. Of any other timer there is no such
event (logs 2 and 8). The Latest Tick of its report is the Tick Counter that tick has increased (R170, log 26). -/
def execStallTimerExpiry (l : Level) (s : State) : Host.Outcome State Fault Refusal :=
  .next (if s.egress.timers[l] = .ended then s.expireTimer l else s)

/-! ## Line-out Down (R45) -/

/-- The frames abandoned when line-out goes Down: the current frame unless Drop-marked, and the stack, top first (R45). -/
def EgressScheduler.abandoned (e : EgressScheduler) : List SentFrame :=
  (if e.dropMark then [] else e.current.toList) ++ e.stack

/-- The Egress Scheduler takes line-out going Down: what is in flight ends without completion, the current frame and the stack
are abandoned with their chains returned, the pending aborts emptied, the timers stopped, the Stream Reset mark set; the lanes
stay (R45, R26). -/
def State.egressDown (s : State) : State :=
  let e := s.egress
  let chains := (e.current.toList ++ e.stack).map (fun c : SentFrame => c.chain)
  let s1 := { s with egress := { e.clearSlot with stack := [], pendingAborts := 0, streamReset := true,
                                                  timers := Vector.replicate 4 .stopped } }
  let s2 := s1.returnChains chains
  { s2 with counters := s2.counters.add .lineOutAbandons e.abandoned.length }

/-! ## Restart Traffic (R24, R25) -/

/-- The frames of the lanes in order of level, each lane head first (log 13). -/
def EgressScheduler.laneFrames (e : EgressScheduler) : List ReleasedFrame := allLevels.flatMap (fun l : Level => e.lanes[l])

/-- Flushed counted once for each of these flows (R24, R25, R71, R72, R74). -/
def CounterBank.addFlushed (b : CounterBank) (flows : List Flow) : CounterBank :=
  flows.foldl (fun b f => b.addFlow f .flushed 1) b

/-- The lanes and the stack discarded, and the timers stopped; each stack entry's stream becomes pending (R24, R25). -/
def State.restartLanesAndStack (s : State) : State :=
  let e := s.egress
  let s1 := { s with egress := { e with lanes := Vector.replicate 4 [], stack := [],
                                        pendingAborts := e.stack.foldl (fun m (c : SentFrame) => setLevel m c.level) e.pendingAborts,
                                        timers := Vector.replicate 4 .stopped } }
  let s2 := s1.returnChains (e.laneFrames.map (fun f : ReleasedFrame => f.chain) ++ e.stack.map (fun c : SentFrame => c.chain))
  { s2 with counters := s2.counters.addFlushed (e.laneFrames.map (fun f : ReleasedFrame => f.flow) ++ e.stack.map (fun c : SentFrame => c.flow)) }

/-- The current frame at Restart Traffic: left when Drop-marked or when its final segment is in flight; Drop-marked when
another of its segments is; discarded at once otherwise (R25). -/
def State.restartCurrent (s : State) : State :=
  match s.egress.partialCurrent with
  | none => s
  | some c =>
    let e : EgressScheduler := { s.egress with pendingAborts := setLevel s.egress.pendingAborts c.level }
    if s.egress.segmentInFlight then { s with egress := { e with dropMark := true } }.countFlow c.flow .flushed
    else ({ s with egress := { e with current := none } }.returnChain c.chain).countFlow c.flow .flushed

/-- The Egress Scheduler takes Restart Traffic; the streams that became pending are a decision event (R24, R25, R11). -/
def State.restartEgress (s : State) : State :=
  let s1 := s.restartLanesAndStack.restartCurrent
  if s1.egress.pendingAborts = s.egress.pendingAborts then s1 else s1.decisionEvent

/-- RESTART_AT_EGRESS_SCHEDULER (R24, R25, R146): taken once while Restart Traffic is in progress; otherwise there is no such
event (log 2). -/
def execRestartAtEgressScheduler (s : State) : Host.Outcome State Fault Refusal :=
  .next (match s.agent.execution with
    | .restarting t r p false =>
      { s with agent := { s.agent with execution := .restarting t r p true } }.restartEgress
    | _ => s)

end Sys2Proof.Machine
end

