-- ==== Sys2Proof/Machine/Pacing.lean ====
section
/-! DEFINITION. The Pacing Unit: contexts, the five pacing modes, evaluation, admission, the tick sweep, and Restart Traffic in
the queues (03_pacing). -/

namespace Sys2Proof.Machine

open Sys2Proof

/-! ## Contexts (R58, R59) -/

/-- Mode seen of a context's counters (R58). -/
def PacingCounters.mode : PacingCounters → PacingMode
  | .openMode => .openMode
  | .interval _ => .interval
  | .credit _ => .credit
  | .gate _ _ _ => .gate
  | .tiered _ _ _ _ => .tiered

/-- The initial counters of the descriptor's mode (R60 to R65). -/
def Descriptor.initialCounters (d : Descriptor) : PacingCounters :=
  match d.mode with
  | .openMode => .openMode
  | .interval => .interval 0
  | .credit => .credit d.param2.toNat
  | .gate => .gate .opened 0 0
  | .tiered => .tiered 0 0 0 0

/-- A context is up to date: not none, and built for the descriptor's Generation and Mode (R58). -/
def Descriptor.upToDate (d : Descriptor) (ctx : Option PacingContext) : Bool :=
  ctx.any (fun c => c.generation == d.generation && c.counters.mode == d.mode)

/-- A Credit above the Ceiling in force is first lowered to it (R59). -/
def Descriptor.lowerCredit (d : Descriptor) : PacingCounters → PacingCounters
  | .credit c => .credit (min c d.param2.toNat)
  | c => c

/-- The counters a tick update or an evaluation works on: as stored with the Credit lowered, or the initial ones when the context
is out of date (R58, R59). -/
def Descriptor.countersOf (d : Descriptor) (ctx : Option PacingContext) : PacingCounters :=
  match ctx with
  | some c => if d.upToDate (some c) then d.lowerCredit c.counters else d.initialCounters
  | none => d.initialCounters

/-! ## The modes at a tick (R61 to R65) -/

/-- The length of a Gate phase (R63). -/
def Descriptor.phaseLength (d : Descriptor) : GatePhase → Nat
  | .opened => d.param1.toNat
  | .shut => d.param2.toNat

/-- The change of a gate's phase when Position has reached the length of the phase: Released is reset when the gate opens (R63,
R59). -/
def Descriptor.gateChange (d : Descriptor) : PacingCounters → PacingCounters
  | .gate phase position released =>
    if d.phaseLength phase ≤ position then
      match phase with
      | .opened => .gate .shut 0 released
      | .shut => .gate .opened 0 0
    else .gate phase position released
  | c => c

/-- A window's end when Tick-in-Window has reached Window (R65, R59). -/
def Descriptor.windowChange (d : Descriptor) : PacingCounters → PacingCounters
  | .tiered t s w e => if d.param1.toNat ≤ t then .tiered 0 0 (w + 1) e else .tiered t s w e
  | c => c

/-- An epoch's end when Window-in-Epoch has reached Epoch (R65, R59; log 18). -/
def Descriptor.epochChange (d : Descriptor) : PacingCounters → PacingCounters
  | .tiered t s w e => if d.param3.toNat ≤ w then .tiered t s 0 0 else .tiered t s w e
  | c => c

/-- The counters of an up-to-date context advanced by one tick (R60 to R65). -/
def Descriptor.advance (d : Descriptor) : PacingCounters → PacingCounters
  | .openMode => .openMode
  | .interval countdown => .interval (countdown - 1)
  | .credit c => .credit (min (c + d.param1.toNat) d.param2.toNat)
  | .gate phase position released => d.gateChange (.gate phase (position + 1) released)
  | .tiered t s w e => d.epochChange (d.windowChange (.tiered (t + 1) s w e))

/-- A context after the sweep's update: reinitialized and not advanced when out of date, else advanced (R58, R70). An Absent
flow's context is left (R58). -/
def Descriptor.tickContext (d : Descriptor) (ctx : Option PacingContext) : Option PacingContext :=
  if d.present then
    some { generation := d.generation,
           counters := if d.upToDate ctx then d.advance (d.countersOf ctx) else d.initialCounters }
  else ctx

/-! ## Evaluation (R67 to R69) -/

/-- Does the mode allow a head of this many blocks now (R60, R61, R62, R64, R66)? -/
def Descriptor.allows (d : Descriptor) (c : PacingCounters) (blocks : Nat) : Bool :=
  match c with
  | .openMode => true
  | .interval countdown => countdown == 0
  | .credit credit => blocks ≤ credit
  | .gate phase _ released => phase == .opened && (d.param3 == 0 || released.toNat < d.param3.toNat)
  | .tiered _ s _ e => s < d.param2.toNat && e < d.param4.toNat

/-- The counters after a release of this many blocks (R61, R62, R64, R66). Released has no stated value past 255: it is a free
value there (log 12), by the index of the draw, the flow and the place in the queue. -/
def Descriptor.afterRelease (d : Descriptor) (draw : Nat) (flow : Flow) (index : Nat) (c : PacingCounters) (blocks : Nat) :
    PacingCounters :=
  match c with
  | .openMode => .openMode
  | .interval _ => .interval d.param1.toNat
  | .credit credit => .credit (credit - blocks)
  | .gate phase position released =>
    .gate phase position (if released = 0xFF#8 then Config.freeByte draw flow.val index else released + 1)
  | .tiered t s w e => .tiered t (s + 1) w (e + 1)

/-- An evaluation allows no further head after a release in Interval mode (R61). -/
def PacingCounters.onePerEvaluation : PacingCounters → Bool
  | .interval _ => true
  | _ => false

/-- A frame's age by the Tick Counter, modulo 2 to the power 32 (R68). -/
def QueuedFrame.age (f : QueuedFrame) (tick : Word32) : Word32 := tick - f.arrivalTick

/-- A head is stale when Max Residence is above 0 and the age is greater (R68). -/
def Descriptor.stale (d : Descriptor) (tick : Word32) (f : QueuedFrame) : Bool :=
  d.maxResidence != 0 && d.maxResidence.toNat < (f.age tick).toNat

/-- A frame as released under a descriptor: Level and flags copied (R69). -/
def Descriptor.release (d : Descriptor) (f : QueuedFrame) : ReleasedFrame :=
  { toQueuedFrame := f, level := d.urgency, preemptible := d.preemptible, preempting := d.preempting }

/-- What an evaluation leaves: the queue, the counters, the frames released and the frames discarded as stale, each in queue
order. -/
structure Evaluation where
  queue : List QueuedFrame
  counters : PacingCounters
  released : List ReleasedFrame
  stale : List QueuedFrame

/-- The pass over a queue from its head (R67): it ends at the first head the mode does not allow; an allowed head that is stale is
discarded with the counters unchanged, and released otherwise. -/
def Descriptor.pass (d : Descriptor) (tick : Word32) (draw : Nat) (flow : Flow) :
    List QueuedFrame → Nat → PacingCounters → Evaluation
  | [], _, c => { queue := [], counters := c, released := [], stale := [] }
  | f :: rest, i, c =>
    if d.allows c (blocksOf f.length) then
      if d.stale tick f then
        let r := d.pass tick draw flow rest (i + 1) c
        { r with stale := f :: r.stale }
      else
        let c' := d.afterRelease draw flow i c (blocksOf f.length)
        if c.onePerEvaluation then { queue := rest, counters := c', released := [d.release f], stale := [] }
        else
          let r := d.pass tick draw flow rest (i + 1) c'
          { r with released := d.release f :: r.released }
    else { queue := f :: rest, counters := c, released := [], stale := [] }

/-- The evaluation of a Present flow: its context first reinitialized when out of date, then the pass (R67). -/
def Descriptor.evaluate (d : Descriptor) (tick : Word32) (draw : Nat) (flow : Flow) (ctx : Option PacingContext)
    (queue : List QueuedFrame) : Evaluation :=
  d.pass tick draw flow queue 0 (d.countersOf ctx)

/-- The context after an evaluation. -/
def Descriptor.contextWith (d : Descriptor) (c : PacingCounters) : Option PacingContext :=
  some { generation := d.generation, counters := c }

/-- StaleDiscards counted once for each of these frames, under the flow of its record (R68, R165). -/
def CounterBank.addStale (b : CounterBank) (stale : List QueuedFrame) : CounterBank :=
  stale.foldl (fun b q => b.addFlow q.flow .staleDiscards 1) b

/-- One flow evaluated after an admission: its queue, context and StaleDiscards changed, the stale chains returned, the released
frames inserted into the lanes together (R57, R67, R69). -/
def State.evaluateFlow (s : State) (flow : Flow) : State :=
  let d := s.activeDescriptor flow
  let r := d.evaluate s.pacing.tickCounter s.draws flow s.pacing.contexts[flow] s.pacing.queues[flow]
  let s1 := { s with
    draws := s.draws + 1,
    pacing := { s.pacing with queues := s.pacing.queues.set flow r.queue,
                              contexts := s.pacing.contexts.set flow (d.contextWith r.counters) },
    counters := s.counters.addStale r.stale }
  (s1.returnChains (r.stale.map (fun f : QueuedFrame => f.chain))).insertLanes r.released

/-! ## Admission (R53 to R57) -/

/-- A flow's queue replaced. -/
def State.setQueue (s : State) (flow : Flow) (q : List QueuedFrame) : State :=
  { s with pacing := { s.pacing with queues := s.pacing.queues.set flow q } }

/-- The frame as the queue holds it: its Arrival Tick set to the Tick Counter (R53). -/
def FrameRecord.arrive (f : FrameRecord) (tick : Word32) : QueuedFrame := { toFrameRecord := f, arrivalTick := tick }

/-- The queue's step of an admission for a Present flow: appended below the Depth Limit (R54), else the Overflow Action: the
arriving frame dropped (R55), or the head dropped and the arriving frame appended (R56). -/
def State.admitFrame (s : State) (f : FrameRecord) : State :=
  let d := s.activeDescriptor f.flow
  let q := s.pacing.queues[f.flow]
  let arrived := f.arrive s.pacing.tickCounter
  if q.length < d.depthLimit.toNat then (s.setQueue f.flow (q ++ [arrived])).countFlow f.flow .admitted
  else match d.overflow, q with
    | .dropNew, _ => (s.returnChain f.chain).countFlow f.flow .fullDiscards
    | .dropOldest, head :: rest =>
      (((s.setQueue f.flow (rest ++ [arrived])).returnChain head.chain).countFlow f.flow .fullDiscards).countFlow f.flow .admitted
    | .dropOldest, [] => (s.setQueue f.flow [arrived]).countFlow f.flow .admitted

/-- An admission request taken by the Pacing Unit: a frame of an Absent flow is discarded and counted in Flushed; of a Present flow,
admitted or dropped, and the flow evaluated (R53, R57). -/
def State.takeRequest (s : State) (f : FrameRecord) : State :=
  if (s.activeDescriptor f.flow).present then (s.admitFrame f).evaluateFlow f.flow
  else (s.returnChain f.chain).countFlow f.flow .flushed

/-- ADMISSION_REQUEST (R53 to R57): the oldest request handed over is taken. With none handed over there is no such event
(logs 2 and 7). -/
def execAdmissionRequest (s : State) : Host.Outcome State Fault Refusal :=
  .next (match s.pacing.requests with
    | [] => s
    | f :: rest => { s with pacing := { s.pacing with requests := rest } }.takeRequest f)

/-! ## The tick (R50, R51, R70) -/

/-- The sweep's update phase over the contexts (R70 phase 1). -/
def State.sweepContexts (s : State) : Vector (Option PacingContext) 256 :=
  Vector.ofFn (fun f : Flow => (s.activeDescriptor f).tickContext s.pacing.contexts[f])

/-- The sweep's evaluation of one flow; an Absent flow takes no part (R70 phase 2). -/
def State.sweepFlow (s : State) (contexts : Vector (Option PacingContext) 256) (f : Flow) : Option Evaluation :=
  let d := s.activeDescriptor f
  if d.present then some (d.evaluate s.pacing.tickCounter s.draws f contexts[f] s.pacing.queues[f]) else none

/-- The sweep: every Present flow's context updated, then every Present flow evaluated in ascending index, and the releases
gathered in that order into one lane insertion (R70). -/
def State.sweep (s : State) : State :=
  let contexts := s.sweepContexts
  let results : Vector (Option Evaluation) 256 := Vector.ofFn (s.sweepFlow contexts)
  let stale := allFlows.flatMap (fun f : Flow => (results[f].map (fun r : Evaluation => r.stale)).getD [])
  let released := allFlows.flatMap (fun f : Flow => (results[f].map (fun r : Evaluation => r.released)).getD [])
  let s1 := { s with
    draws := s.draws + 1,
    pacing := { s.pacing with
      queues := Vector.ofFn (fun f : Flow => (results[f].map (fun r : Evaluation => r.queue)).getD s.pacing.queues[f]),
      contexts := Vector.ofFn (fun f : Flow =>
        match results[f] with
        | some r => (s.activeDescriptor f).contextWith r.counters
        | none => contexts[f]) },
    counters := s.counters.addStale stale }
  (s1.returnChains (stale.map (fun q : QueuedFrame => q.chain))).insertLanes released

/-- The Tick Counter increased, wrapping, and the next period begun with the Tick Period in force (R50, R51). -/
def State.countTick (s : State) : State :=
  { s with pacing := { s.pacing with tickCounter := s.pacing.tickCounter + 1, period := s.settings.tickPeriod } }

/-- TICK_EXPIRY (R50, R51, R70, R38): the Pacing Unit takes it for the Tick Counter and the sweep, and the Egress Scheduler for
its stall timers. The increase of the Tick Counter, the sweep's lane insertion and its choice come before an expiry of the same tick,
so a StallAbort posted at that expiry has the increased counter as its Latest Tick (log 26). -/
def execTickExpiry (s : State) : Host.Outcome State Fault Refusal :=
  let s1 := s.countTick.sweep
  .next { s1 with egress := s1.egress.tickTimers }

/-! ## Phase, window and epoch ends standing alone (log 19) -/

/-- One flow's context changed by a step of its mode, when the flow is Present and its context up to date. -/
def State.changeContext (s : State) (f : Flow) (change : Descriptor → PacingCounters → PacingCounters) : State :=
  let d := s.activeDescriptor f
  match s.pacing.contexts[f] with
  | some c =>
    if d.present && d.upToDate (some c) then
      { s with pacing := { s.pacing with contexts := s.pacing.contexts.set f (d.contextWith (change d c.counters)) } }
    else s
  | none => s

/-- GATE_PHASE_CHANGE (R63): the phase of a Gate flow whose Position has reached the phase's length; of any other flow there is no
such event (logs 2 and 19). -/
def execGatePhaseChange (f : Flow) (s : State) : Host.Outcome State Fault Refusal :=
  .next (s.changeContext f Descriptor.gateChange)

/-- WINDOW_BOUNDARY (R65): the window of a Tiered flow whose Tick-in-Window has reached Window (logs 2 and 19). -/
def execWindowBoundary (f : Flow) (s : State) : Host.Outcome State Fault Refusal :=
  .next (s.changeContext f Descriptor.windowChange)

/-- EPOCH_BOUNDARY (R65): the epoch of a Tiered flow whose Window-in-Epoch has reached Epoch (logs 2 and 19). -/
def execEpochBoundary (f : Flow) (s : State) : Host.Outcome State Fault Refusal :=
  .next (s.changeContext f Descriptor.epochChange)

/-! ## Flushes (R71, R72, R74) -/

/-- The queues of these flows emptied, flows in ascending index and each queue head first, every frame counted in its flow's
Flushed and its chain returned (R71, R72, R74; log 13). -/
def State.flushQueues (s : State) (which : Flow → Bool) : State :=
  let gone := (allFlows.filter which).flatMap (fun f : Flow => s.pacing.queues[f])
  let s1 := { s with
    pacing := { s.pacing with queues := Vector.ofFn (fun f : Flow => if which f then [] else s.pacing.queues[f]) },
    counters := s.counters.addFlushed (gone.map (fun q : QueuedFrame => q.flow)) }
  s1.returnChains (gone.map (fun q : QueuedFrame => q.chain))

/-- The contexts of these flows set to none (R71, R74). -/
def State.clearContexts (s : State) (which : Flow → Bool) : State :=
  { s with pacing := { s.pacing with
      contexts := Vector.ofFn (fun f : Flow => if which f then none else s.pacing.contexts[f]) } }

/-- RESTART_AT_PACING_UNIT (R74, R146): every queue emptied and every context set to none, once while Restart Traffic is in progress;
otherwise there is no such event (log 2). -/
def execRestartAtPacingUnit (s : State) : Host.Outcome State Fault Refusal :=
  .next (match s.agent.execution with
    | .restarting t r false e =>
      ({ s with agent := { s.agent with execution := .restarting t r true e } }.flushQueues (fun _ => true)).clearContexts
        (fun _ => true)
    | _ => s)

end Sys2Proof.Machine
end

