-- ==== Sys2Proof/Machine/LineIn.lean ====
section
/-! DEFINITION. Reception on line-in: delimiting, the hold-back and the check, classification, allocation, the verdict at a
frame's end, and Restart Traffic at the receiver (04_the_frame_store section 4.3, 05_reception_and_classification). -/

namespace Sys2Proof.Machine

open Sys2Proof

/-- The receiver replaced. -/
def State.setLineIn (s : State) (r : LineInReceiver) : State := { s with lineIn := r }

/-- A frame is in reception (R92). -/
def LineInState.inFrame : LineInState → Bool
  | .down => false
  | .idle => false
  | .header => true
  | .keep => true
  | .drain => true

/-! ## Giving up what the frame in reception holds -/

/-- The partial chain of the frame in reception (R76); a frame without a record has none. -/
def LineInReceiver.chain (r : LineInReceiver) : List BlockNo :=
  match r.record with
  | some x => x.chain
  | none => []

/-- The partial chain of the frame in reception returned as one return, and its record ended (R82, R84, R85). -/
def State.dropRecord (s : State) : State :=
  (s.setLineIn { s.lineIn with record := none }).returnChain s.lineIn.chain

/-- The frame's Inbox place freed, with the bytes written into it: the incomplete entry leaves the Inbox (R96, R100, R104). -/
def State.freePlace (s : State) : State :=
  { s with agent := { s.agent with inbox := s.agent.inbox.filter (fun e => e.complete) } }

/-- The classification without its Inbox place. -/
def State.forgetPlace (s : State) : State :=
  { s with classifier := s.classifier.map (fun c => { c with inboxPlace := false }) }

/-- The frame in reception enters Drain, giving up its blocks. -/
def State.drainRecord (s : State) : State :=
  let s1 := s.dropRecord
  s1.setLineIn { s1.lineIn with state := .drain }

/-! ## Classification (R94 to R97, R80) -/

/-- The reserve class a flow's active Urgency gives (R80). -/
def Descriptor.reserveClass (d : Descriptor) : ReserveClass := if d.urgency = 0 then .class0 else .class1

/-- The label of the header received (10_formats section 10.1). -/
def LineInReceiver.label (r : LineInReceiver) : Word16 := word16 (r.header.getD 0 0) (r.header.getD 1 0)

/-- A forward frame of a flow, kept (R94). -/
def State.classifyForward (s : State) (label : Word16) (f : Flow) : State :=
  { s with classifier := some { label := label, kind := .forward f (s.activeDescriptor f).reserveClass, inboxPlace := false },
           lineIn := { s.lineIn with state := .keep } }

/-- A Management frame: it takes the tail place of the Inbox, or is drained as an overflow, counted and reported (R95). -/
def State.classifyManagement (s : State) (label : Word16) : State :=
  if s.agent.inbox.length < 4 then
    { s with classifier := some { label := label, kind := .management, inboxPlace := true },
             lineIn := { s.lineIn with state := .keep },
             agent := { s.agent with inbox := s.agent.inbox ++ [{ complete := false, bytes := [] }] } }
  else
    ({ s with classifier := some { label := label, kind := .management, inboxPlace := false },
              lineIn := { s.lineIn with state := .drain, overflowed := true } }.count .inboxOverflows).post .inboxOverflow

/-- An unmapped frame: sent to a Present Default Flow under that policy, else drained (R97). -/
def State.classifyUnmapped (s : State) (label : Word16) : State :=
  if s.settings.unmappedPolicy = .defaultFlow ∧ (s.activeDescriptor s.settings.defaultFlow).present then
    s.classifyForward label s.settings.defaultFlow
  else
    { s with classifier := some { label := label, kind := .unmapped, inboxPlace := false },
             lineIn := { s.lineIn with state := .drain } }

/-- The header classified at the fourth byte (R94). -/
def State.classify (s : State) : State :=
  let label := s.lineIn.label
  if label = s.settings.managementLabel then s.classifyManagement label
  else match mapLookup s.plan.activeBank.map label with
    | some f => s.classifyForward label f
    | none => s.classifyUnmapped label

/-! ## Presenting a byte (R79, R81, R82, R84, R96) -/

/-- A block request of the frame in reception, and what the granted block takes: the partial chain grows by the block, whose first
bytes are `bytes`; on a refusal the frame is truncated and drained (R79, R81, R82). -/
def State.requestBlock (s : State) (f : Flow) (cls : ReserveClass) (bytes : List Byte) : State :=
  match s.store.allocate cls s.settings.reserveFloor.toNat with
  | some (b, st) =>
    { s with store := st.write b 0 bytes,
             lineIn := { s.lineIn with
               record := some { flow := f, reserveClass := cls, chain := s.lineIn.chain ++ [b] } } }
  | none =>
    let s1 := s.drainRecord
    s1.setLineIn { s1.lineIn with truncated := true }

/-- A byte past the frame's greatest length: the frame is marked over-length, gives up its blocks or its place, and drains (R84, R96). -/
def State.overrun (s : State) : State :=
  let s1 := s.drainRecord.freePlace.forgetPlace
  s1.setLineIn { s1.lineIn with overLength := true }

/-- Byte number `k` of a forward frame presented to the Frame Store: the header waits for byte 4, whose block it opens; bytes 64,
128, ... open the later blocks; byte 1024 is over-length (R79, R84). -/
def State.presentForward (s : State) (f : Flow) (cls : ReserveClass) (k : Nat) (b : Byte) : State :=
  if k < 4 then s
  else if k = 4 then s.requestBlock f cls (s.lineIn.header ++ [b])
  else if 1024 ≤ k then s.overrun
  else if k % 64 = 0 then s.requestBlock f cls [b]
  else match s.lineIn.chain.getLast? with
    | some last => { s with store := s.store.write last (k % 64) [b] }
    | none => s

/-- Byte number `k` of a management frame written into its Inbox place; byte 256 is over-length (R93, R96). -/
def State.presentManagement (s : State) (k : Nat) (b : Byte) : State :=
  if 256 ≤ k then s.overrun
  else
    { s with agent := { s.agent with
        inbox := s.agent.inbox.map (fun e => if e.complete then e else { e with bytes := e.bytes ++ [b] }) } }

/-- A byte that leaves the hold-back in Keep, presented as byte number `k` of the frame (R93). -/
def State.presentByte (s : State) (k : Nat) (b : Byte) : State :=
  match s.classifier with
  | some c =>
    match c.kind with
    | .management => s.presentManagement k b
    | .forward f cls => s.presentForward f cls k b
    | .unmapped => s
  | none => s

/-! ## The reports of the decoder (R92, R93) -/

/-- The receiver with one more byte of the frame in reception: counted, held back, the oldest of five pushed into the CRC, and kept
as header while fewer than four have arrived (R92, R93). -/
def LineInReceiver.take (r : LineInReceiver) (b : Byte) : LineInReceiver :=
  let counted := { r with byteCount := r.byteCount + 1,
                          header := if r.header.length < 4 then r.header ++ [b] else r.header }
  match r.holdBack with
  | o :: x :: y :: z :: _ => { counted with holdBack := [x, y, z, b], crc := crc32Byte r.crc o }
  | h => { counted with holdBack := h ++ [b] }

/-- The byte a new byte pushes out of the hold-back, if the hold-back is full (R93). -/
def LineInReceiver.leaving (r : LineInReceiver) : Option Byte :=
  match r.holdBack with
  | o :: _ :: _ :: _ :: _ => some o
  | _ => none

/-- LINE_IN_BYTE (R92, R93): a byte joins the frame in reception; the fourth is followed by classification; in Keep the byte that
leaves the hold-back is presented. With no frame in reception the byte is discarded. -/
def execLineInByte (b : Byte) (s : State) : Host.Outcome State Fault Refusal :=
  let s1 := s.setLineIn (s.lineIn.take b)
  .next (match s.lineIn.state with
    | .down => s
    | .idle => s
    | .header => if s1.lineIn.byteCount = 4 then s1.classify else s1
    | .keep =>
      match s.lineIn.leaving with
      | some o => s1.presentByte (s.lineIn.byteCount - 4) o
      | none => s1
    | .drain => s1)

/-- LINE_IN_ERROR_SYMBOL (R92, R180): the frame in reception is marked bad; with none the symbol is discarded. -/
def execLineInErrorSymbol (s : State) : Host.Outcome State Fault Refusal :=
  .next (if s.lineIn.state.inFrame then s.setLineIn { s.lineIn with bad := true } else s)

/-! ## The verdict (R98) -/

/-- The rows of R98, in their order. -/
inductive Verdict where
  | neverClassified
  | afterOverflow
  | afterRestart
  | truncated (flow : Flow)
  | overLength
  | checkError (label : Word16)
  | tooShort
  | unmapped (label : Word16)
  | command
  | forward

/-- The check is good: not marked bad, at least four bytes, and the CRC-32 over what left the hold-back equals the four held-back
bytes (R93, R177). -/
def LineInReceiver.checkGood (r : LineInReceiver) : Bool :=
  !r.bad && decide (4 ≤ r.byteCount) && word32Of r.holdBack == some (~~~ r.crc)

/-- The verdict on a classified frame that row 4 does not take (R98 rows 5 to 10). -/
def LineInReceiver.verdictOn (r : LineInReceiver) (c : Classification) : Verdict :=
  if r.overLength then .overLength
  else if !r.checkGood then .checkError c.label
  else if r.byteCount - 4 < 8 then .tooShort
  else match c.kind with
    | .unmapped => .unmapped c.label
    | .management => .command
    | .forward _ _ => .forward

/-- The verdict on the frame at its end: the first row of R98 that applies. -/
def LineInReceiver.verdict (r : LineInReceiver) (c : Option Classification) : Verdict :=
  match c with
  | none => .neverClassified
  | some c =>
    if r.byteCount < 4 then .neverClassified
    else if r.overflowed then .afterOverflow
    else if r.restarted then .afterRestart
    else match c.kind with
      | .forward f _ => if r.truncated then .truncated f else r.verdictOn c
      | .management => r.verdictOn c
      | .unmapped => r.verdictOn c

/-- A truncated frame counted and reported (R83). -/
def State.countTruncated (s : State) (f : Flow) : State :=
  ((s.countFlow f .storeDiscards).count .storeExhausted).post (.storeExhausted f)

/-- A good forward frame handed over with its admission request, its Length set (R78, R99). -/
def State.handOver (s : State) : State :=
  match s.lineIn.record with
  | some r =>
    { s with lineIn := { s.lineIn with record := none },
             pacing := { s.pacing with requests := s.pacing.requests ++ [{ toReceptionRecord := r,
                                                                            length := s.lineIn.byteCount - 4 }] } }
  | none => s

/-- A good command left in its Inbox place, complete (R100). -/
def State.completeEntry (s : State) : State :=
  { s with agent := { s.agent with inbox := s.agent.inbox.map (fun e => { e with complete := true }) } }

/-- What a verdict does (R98). -/
def State.applyVerdict (s : State) : Verdict → State
  | .neverClassified => s.count .lengthErrors
  | .afterOverflow => s
  | .afterRestart => s
  | .truncated f => s.countTruncated f
  | .overLength => s.count .lengthErrors
  | .checkError label => (s.freePlace.count .checkErrors).post (.checkError label)
  | .tooShort => s.freePlace.count .lengthErrors
  | .unmapped label => (s.count .unmappedDiscards).post (.unmappedLabel label)
  | .command => s.completeEntry.count .managementFrames
  | .forward => s.handOver

/-- The receiver with the frame gone: what it still holds returned, the classification cleared (R92, R98, R104). -/
def State.leaveFrame (s : State) (next : LineInState) : State :=
  { s.dropRecord with lineIn := LineInReceiver.empty next, classifier := none }

/-- The end of the frame in reception: LineInFrames counted, the one verdict given, the receiver Idle (R98, R101). -/
def State.endFrame (s : State) : State :=
  ((s.count .lineInFrames).applyVerdict (s.lineIn.verdict s.classifier)).leaveFrame .idle

/-- LINE_IN_END_DELIMITER (R92, R98): the frame in reception ends; with none the delimiter is discarded. -/
def execLineInEndDelimiter (s : State) : Host.Outcome State Fault Refusal :=
  .next (if s.lineIn.state.inFrame then s.endFrame else s)

/-- A frame begun: byte count 0, holding nothing (R92). -/
def State.beginFrame (s : State) : State := s.setLineIn (LineInReceiver.empty .header)

/-- LINE_IN_START_DELIMITER (R92): a frame in reception is first ended marked bad; then a frame begins. While line-in is Down no
delimiter arrives. -/
def execLineInStartDelimiter (s : State) : Host.Outcome State Fault Refusal :=
  .next (match s.lineIn.state with
    | .down => s
    | .idle => s.beginFrame
    | .header => ((s.setLineIn { s.lineIn with bad := true }).endFrame).beginFrame
    | .keep => ((s.setLineIn { s.lineIn with bad := true }).endFrame).beginFrame
    | .drain => ((s.setLineIn { s.lineIn with bad := true }).endFrame).beginFrame)

/-! ## Line-in Down at the receiver (R104) -/

/-- The flow of the frame in reception when it is truncated and not yet counted by Restart Traffic (R83, R104, R106; log 17). -/
def State.truncatedFlow (s : State) : Option Flow :=
  if s.lineIn.truncated && !s.lineIn.restarted then
    match s.classifier with
    | some { label := _, kind := .forward f _, inboxPlace := _ } => some f
    | _ => none
  else none

/-- The frame in reception lost: its blocks returned, its Inbox place freed, a truncated frame counted; the receiver enters Down
(R104). -/
def State.loseFrame (s : State) : State :=
  let s1 := match s.truncatedFlow with
    | some f => s.countTruncated f
    | none => s
  s1.freePlace.leaveFrame .down

/-! ## Restart Traffic at the receiver (R106) -/

/-- The frame in reception marked as discarded by Restart Traffic (R98 row 3). -/
def State.markRestarted (s : State) : State := s.setLineIn { s.lineIn with restarted := true }

/-- The receiver takes Restart Traffic: a forward frame in Keep is discarded and counted in Flushed; a truncated or over-length
forward frame is counted at once; anything else is left, a management frame in Keep among it (R106, log 27). A frame already marked is
left (log 17). -/
def State.restartLineIn (s : State) : State :=
  match s.classifier with
  | some { label := _, kind := .forward f _, inboxPlace := _ } =>
    if s.lineIn.restarted then s
    else if s.lineIn.truncated then (s.countTruncated f).markRestarted
    else if s.lineIn.overLength then (s.count .lengthErrors).markRestarted
    else (s.drainRecord.countFlow f .flushed).markRestarted
  | _ => s

/-- RESTART_AT_LINE_IN_RECEIVER (R106, R146): taken once while Restart Traffic is in progress; otherwise there is no such event
(log 2). -/
def execRestartAtLineInReceiver (s : State) : Host.Outcome State Fault Refusal :=
  .next (match s.agent.execution with
    | .restarting t false p e =>
      { s with agent := { s.agent with execution := .restarting t true p e } }.restartLineIn
    | _ => s)

end Sys2Proof.Machine
end

