-- ==== Sys2Proof/Machine/Lines.lean ====
section
/-! DEFINITION. Line-out receive (Hold symbols, return frames), the Return Merge, and the comings Up and goings Down of both
lines (02 sections 2.1 and 2.5, 05 section 5.6, 08_the_return_path). -/

namespace Sys2Proof.Machine

open Sys2Proof

/-! ## Hold symbols (R30, R180) -/

/-- A new Hold Mask: replaced wholly; a change is handed to the scheduler for its timers and as a decision event (R30, R36, R37). -/
def State.holdChange (s : State) (mask : BitVec 4) : State :=
  if mask = s.lineOut.holdMask then s
  else
    { s with lineOut := { s.lineOut with holdMask := mask },
             egress := s.egress.holdTimers s.lineOut.holdMask mask s.settings.stallLimit }.decisionEvent

/-- HOLD_SYMBOL (R30, R180): a decodable Hold replaces the mask; an undecodable one is discarded. While line-out is Down no Hold
symbol is received (R31; log 16). -/
def execHoldSymbol (arg : SymbolArgument) (s : State) : Host.Outcome State Fault Refusal :=
  .next (match decodeHold arg with
    | some mask => if s.lineOut.up then s.holdChange mask else s
    | none => s)

/-- RECEIVED_ABORT_OR_STREAM_RESET (R180): discarded with its argument, whichever it is. -/
def execReceivedAbortOrStreamReset (_symbol : SentSymbol) (_arg : SymbolArgument) (s : State) :
    Host.Outcome State Fault Refusal := .next s

/-! ## Return frames (R152 to R155) -/

/-- The Return Buffer replaced. -/
def State.setBuffer (s : State) (b : List ReturnEntry) : State := { s with merge := { s.merge with buffer := b } }

/-- The Line-Out Receiver's state replaced. -/
def State.setLineOutState (s : State) (x : LineOutState) : State := { s with lineOut := { s.lineOut with state := x } }

/-- The frame being stored given up: its place freed, ReturnDrops counted (R153, R155). -/
def State.giveUpReturn (s : State) : State :=
  (s.setBuffer (s.merge.buffer.filter (fun e => e.complete))).count .returnDrops

/-- A Start delimiter with no frame in reception: a free place is taken, or the frame is refused, counted and drained (R152). -/
def State.takePlace (s : State) : State :=
  if s.merge.buffer.length < 2 then
    (s.setBuffer (s.merge.buffer ++ [{ complete := false, bytes := [] }])).setLineOutState .storing
  else (s.count .returnDrops).setLineOutState .draining

/-- RETURN_START_DELIMITER (R152, R153): a frame in reception is first given up or ended; then a place is asked for. -/
def execReturnStartDelimiter (s : State) : Host.Outcome State Fault Refusal :=
  .next (match s.lineOut.state with
    | .down => s
    | .idle => s.takePlace
    | .storing => s.giveUpReturn.takePlace
    | .draining => s.takePlace)

/-- The number of bytes the frame being stored holds. -/
def ReturnMerge.storedLength (m : ReturnMerge) : Nat := ((m.buffer.find? (fun e => !e.complete)).map (fun e => e.bytes.length)).getD 0

/-- A byte written into the place being filled (R152). -/
def State.storeReturn (s : State) (b : Byte) : State :=
  s.setBuffer (s.merge.buffer.map (fun e => if e.complete then e else { e with bytes := e.bytes ++ [b] }))

/-- RETURN_BYTE (R152, R153): stored, or the frame given up when this is its byte number 1028, or discarded. -/
def execReturnByte (b : Byte) (s : State) : Host.Outcome State Fault Refusal :=
  .next (match s.lineOut.state with
    | .down => s
    | .idle => s
    | .storing =>
      if 1028 ≤ s.merge.storedLength then s.giveUpReturn.setLineOutState .draining else s.storeReturn b
    | .draining => s)

/-- The place being filled made complete (R153). -/
def State.keepReturn (s : State) : State := s.setBuffer (s.merge.buffer.map (fun e => { e with complete := true }))

/-- RETURN_END_DELIMITER (R153): a stored frame of 12 bytes or more is kept and a shorter one given up; a drained frame ends. -/
def execReturnEndDelimiter (s : State) : Host.Outcome State Fault Refusal :=
  .next (match s.lineOut.state with
    | .down => s
    | .idle => s
    | .storing =>
      if 12 ≤ s.merge.storedLength then s.keepReturn.setLineOutState .idle else s.giveUpReturn.setLineOutState .idle
    | .draining => s.setLineOutState .idle)

/-- RETURN_ERROR_SYMBOL (R153): the frame being stored is given up and drained; otherwise the symbol is discarded. -/
def execReturnErrorSymbol (s : State) : Host.Outcome State Fault Refusal :=
  .next (match s.lineOut.state with
    | .down => s
    | .idle => s
    | .storing => s.giveUpReturn.setLineOutState .draining
    | .draining => s)

/-! ## Line-out Up and Down (R29, R45, R46, R48, R155) -/

/-- LINE_OUT_COMES_UP (R29, R48, R155): the receiver enters Idle, and the coming Up is a decision event. Of a line that is Up it
is not an event (R29). -/
def execLineOutComesUp (s : State) : Host.Outcome State Fault Refusal :=
  .next (if s.lineOut.up then s else (s.setLineOutState .idle).decisionEvent)

/-- A return frame being stored when line-out goes Down is given up (R155). -/
def State.loseReturn (s : State) : State :=
  match s.lineOut.state with
  | .storing => s.giveUpReturn
  | _ => s

/-- LINE_OUT_GOES_DOWN (R31, R45, R46, R155): the Line-Out Receiver clears the Hold Mask, posts LineState and enters Down, a return
frame in reception is lost, and the scheduler gives up what it has begun. Of a line that is Down it is not an event (R29). -/
def execLineOutGoesDown (s : State) : Host.Outcome State Fault Refusal :=
  .next (if s.lineOut.up then
      ({ s.loseReturn.post (.lineState .lineOut) with lineOut := { state := .down, holdMask := 0 } }).egressDown
    else s)

/-! ## The Return Merge (R156 to R160) -/

/-- The return frame offered: the complete head of the Return Buffer (R156). -/
def ReturnMerge.offered (m : ReturnMerge) : Option (List Byte) :=
  match m.buffer with
  | e :: _ => if e.complete then some e.bytes else none
  | [] => none

/-- The ready response at the head of the Outbox (R135, R158). -/
def ManagementAgent.readyHead (a : ManagementAgent) : Option Response :=
  match a.outbox with
  | .ready r :: _ => some r
  | _ => none

/-- The agent side waits: a ready Outbox head, or a pending report (R156). -/
def State.agentWaits (s : State) : Bool := s.agent.readyHead.isSome || !s.reports.isEmpty

/-- The transmitter started with a frame, and the side just served (R157, R159). -/
def State.transmit (s : State) (side : Side) (kind : SentKind) (bytes : List Byte) : State :=
  { s with merge := { s.merge with lastServed := side, transmitter := .busy kind bytes } }

/-- The agent side served: the ready response, else a report frame built from the head record, which leaves the queue (R149,
R158, R172; log 24). No report goes before a ready response, though R176 speaks of one (log 28). -/
def State.serveAgent (s : State) : State :=
  match s.agent.readyHead with
  | some r => s.transmit .agentSide .response (withFrameCheck r.bytes)
  | none =>
    match s.reports with
    | r :: rest =>
      { s with reports := rest }.transmit .agentSide .report (withFrameCheck (r.bytes s.settings.responseLabel))
    | [] => s

/-- The choice of the next frame: the one side that waits, or of two the one not served last (R157). -/
def State.mergeChoice (s : State) : State :=
  match s.merge.offered with
  | some bytes =>
    if s.agentWaits && s.merge.lastServed == .returnSide then s.serveAgent
    else s.transmit .returnSide .returnFrame bytes
  | none => s.serveAgent

/-- RETURN_MERGE_CHOICE (R156 to R158): made when line-in is Up, the transmitter free and a side waits; otherwise there is no such
event (log 2). -/
def execReturnMergeChoice (s : State) : Host.Outcome State Fault Refusal :=
  .next (if s.lineIn.up && s.merge.transmitter == .free then s.mergeChoice else s)

/-- The frame on line-in transmit leaves its place: a return frame its Return Buffer place, a response its Outbox place (R159, R160). -/
def State.leaveTransmitter (s : State) (kind : SentKind) : State :=
  match kind with
  | .returnFrame => s.setBuffer s.merge.buffer.tail
  | .response => { s with agent := { s.agent with outbox := s.agent.outbox.tail } }
  | .report => s

/-- The transmitter's state replaced. -/
def State.setTransmitter (s : State) (t : Transmitter) : State := { s with merge := { s.merge with transmitter := t } }

/-- LINE_IN_TRANSMISSION_COMPLETION (R159): the frame transmitted leaves its place and the transmitter is free. With nothing on the
line there is no such event (log 2). -/
def execLineInTransmissionCompletion (s : State) : Host.Outcome State Fault Refusal :=
  .next (match s.merge.transmitter with
    | .busy kind _ => (s.leaveTransmitter kind).setTransmitter .free
    | _ => s)

/-! ## Line-in Up and Down (R91, R104, R105, R160) -/

/-- LINE_IN_COMES_UP (R105, R161): the receiver enters Idle, LineState naming line-in is posted, the transmitter becomes free. Of a
line that is Up it is not an event (R91). -/
def execLineInComesUp (s : State) : Host.Outcome State Fault Refusal :=
  .next (if s.lineIn.up then s
    else ((s.setLineIn (LineInReceiver.empty .idle)).post (.lineState .lineIn)).setTransmitter .free)

/-- The Return Merge takes line-in going Down: a frame on the line is lost and leaves its place, a return frame counted in
ReturnDrops; the transmitter enters Down (R160). -/
def State.mergeDown (s : State) : State :=
  match s.merge.transmitter with
  | .busy .returnFrame _ => ((s.leaveTransmitter .returnFrame).count .returnDrops).setTransmitter .down
  | .busy kind _ => (s.leaveTransmitter kind).setTransmitter .down
  | _ => s.setTransmitter .down

/-- LINE_IN_GOES_DOWN (R104, R150, R160): the frame in reception is lost, and so is the frame on line-in transmit. Of a line that is
Down it is not an event (R91). -/
def execLineInGoesDown (s : State) : Host.Outcome State Fault Refusal :=
  .next (if s.lineIn.up then s.loseFrame.mergeDown else s)

end Sys2Proof.Machine
end

