-- ==== Sys2Proof/Machine/Agent.lean ====
section
/-! DEFINITION. The Management Agent's handling of a command: beginning the head of the Inbox, repeats, Malformed, the response and
the Last Transaction record (07_management_protocol sections 7.3 and 7.4). -/

namespace Sys2Proof.Machine

open Sys2Proof

/-- What an owning block makes of a command: the part after it, and the status and results (R136 step 3); no answer yet for Restart
Traffic, whose response comes at its completion (R147). -/
structure Reply where
  state : State
  answer : Option (Status × List Byte)

/-- The answer of a command that is refused: nothing changed, no results (R137). -/
def State.refuse (s : State) (st : Status) : Reply := { state := s, answer := some (st, []) }

/-- The answer of a command that is refused with the one result byte its rule names (R116, R117, R143; 10_formats section 10.2). -/
def State.refuseWith (s : State) (st : Status) (result : Nat) : Reply := { state := s, answer := some (st, [byteOf result]) }

/-- The answer of a command carried out. -/
def State.answerDone (s : State) (results : List Byte) : Reply := { state := s, answer := some (.done, results) }

/-- The entry the agent may begin: the complete head of the Inbox, the execution state Free, an Outbox place free (R134). -/
def ManagementAgent.readyEntry (a : ManagementAgent) : Option InboxEntry :=
  match a.inbox with
  | e :: _ => if e.complete && a.execution == .free && decide (a.outbox.length < 2) then some e else none
  | [] => none

/-- The entry leaves the Inbox and an Outbox place is reserved (R134, R135). -/
def State.takeEntry (s : State) : State :=
  { s with agent := { s.agent with inbox := s.agent.inbox.tail, outbox := s.agent.outbox ++ [.reserved] } }

/-- A response placed in the Outbox entry reserved for it, the tail (R135, R136 step 4). -/
def State.placeResponse (s : State) (r : Response) : State :=
  { s with agent := { s.agent with outbox := s.agent.outbox.dropLast ++ [.ready r] } }

/-- The stored response of the Last Transaction record when the entry repeats it: both Transaction Number and Command Code equal
(R136 step 1, R138). -/
def ManagementAgent.stored (a : ManagementAgent) (e : InboxEntry) : Option Response :=
  match a.last with
  | some l => if l.transaction = e.transaction && l.code = e.code then some l.response else none
  | none => none

/-- A response built, placed, and recorded as the last transaction (R136 steps 4 and 5, R137). -/
def State.respond (s : State) (label : Word16) (transaction : Word16) (code : Byte) (st : Status) (results : List Byte) : State :=
  let r : Response := { label := label, transaction := transaction, code := code, status := st, repeated := false,
                        results := results }
  let s1 := s.placeResponse r
  { s1 with agent := { s1.agent with last := some { transaction := transaction, code := code, response := r } } }

/-- The agent handles an entry it begins, within the one event (R136): a repeat is answered from the record, with Repeat set and the
label taken afresh (R138); a bad operand length is answered Malformed (R140); else the command is executed and answered. The label is
the one in force at the start of the event (R137). -/
def State.handle (s : State) (lengths : List Nat) (run : InboxEntry → State → Reply) (e : InboxEntry) : State :=
  let label := s.settings.responseLabel
  let s1 := s.takeEntry
  match s.agent.stored e with
  | some r => s1.placeResponse { r with repeated := true, label := label }
  | none =>
    if lengths.contains e.operandLength then
      let reply := run e s1
      match reply.answer with
      | some (st, results) => reply.state.respond label e.transaction e.code st results
      | none => reply.state
    else s1.respond label e.transaction e.code .malformed []

/-- The agent begins the head of the Inbox when R134 allows it and the entry is one this row of the table stands for; otherwise there
is no such event (log 2). -/
def State.beginCommand (s : State) (mine : InboxEntry → Bool) (lengths : List Nat) (run : InboxEntry → State → Reply) : State :=
  match s.agent.readyEntry with
  | some e => if mine e then s.handle lengths run e else s
  | none => s

/-- MALFORMED_COMMAND (R140): the agent begins an entry whose Kind is not Command or whose code is not in the catalogue; it has no
accepted operand length, so it is answered Malformed, or from the record when it repeats. -/
def execMalformedCommand (s : State) : Host.Outcome State Fault Refusal :=
  .next (s.beginCommand InboxEntry.isUnknown [] (fun _ s => s.refuse .malformed))

end Sys2Proof.Machine
end

