-- ==== Sys2Proof/Machine/Plan.lean ====
section
/-! DEFINITION. The Plan Store: the plan commands, the background jobs and Swap Plan (06_the_forwarding_plan). -/

namespace Sys2Proof.Machine

open Sys2Proof

/-! ## Banks -/

/-- A bank's contents replaced. -/
def State.setBank (s : State) (b : Bank) (c : BankContents) : State := { s with plan := s.plan.setBank b c }

/-- A job is running (R124). -/
def State.jobRunning (s : State) : Bool := s.plan.job.isSome

/-- A bank's new contents after a successful write: its Ready mark cleared (R113). -/
def State.writeBank (s : State) (b : Bank) (c : BankContents) : State := s.setBank b { c with ready := false }

/-- The first three checks of R112 on a command that changes a bank: the bank operand, the active bank, a running job; then the
command's own part. -/
def State.guarded (s : State) (ops : List Byte) (k : Bank → Reply) : Reply :=
  match operandBank ops with
  | none => s.refuse .range
  | some b =>
    if b = s.plan.active then s.refuse .activeBank
    else if s.jobRunning then s.refuse .busy
    else k b

/-- A read command's bank operand judged: any bank but A or B is refused with Range (R140, R178). -/
def State.withBank (s : State) (ops : List Byte) (k : Bank → Reply) : Reply :=
  match operandBank ops with
  | none => s.refuse .range
  | some b => k b

/-! ## Reads (R118, R119) -/

/-- Read Map Entry (R118). -/
def runReadMapEntry (e : InboxEntry) (s : State) : Reply :=
  s.withBank e.operands fun b =>
    match mapLookup (s.plan.bank b).map (operandWord e.operands 1) with
    | some f => s.answerDone [flowByte f]
    | none => s.refuse .missing

/-- READ_MAP_ENTRY (R118): code 0x05, three operand bytes. -/
def execReadMapEntry (s : State) : Host.Outcome State Fault Refusal :=
  .next (s.beginCommand (InboxEntry.isCommand 0x05) [3] runReadMapEntry)

/-- The entries a listing begins from: all, or those with labels greater than the Previous Label (R119). -/
def entriesAfter (m : List MapEntry) (previous : Option Word16) : List MapEntry :=
  match previous with
  | some p => m.filter (fun e => decide (p.toNat < e.label.toNat))
  | none => m

/-- An entry in a listing: its label and its flow (10_formats section 10.2). -/
def MapEntry.bytes (e : MapEntry) : List Byte := be16 e.label ++ [flowByte e.flow]

/-- The results of List Map: entry count, More, number listed, up to 32 entries (R119, 10_formats section 10.2). -/
def listing (m : List MapEntry) (previous : Option Word16) : List Byte :=
  let rest := entriesAfter m previous
  let listed := rest.take 32
  wordOf m.length ++ [boolByte (decide (32 < rest.length)), byteOf listed.length] ++ listed.flatMap MapEntry.bytes

/-- List Map (R119): one operand byte without Previous Label, three with it. -/
def runListMap (e : InboxEntry) (s : State) : Reply :=
  s.withBank e.operands fun b =>
    s.answerDone (listing (s.plan.bank b).map (if e.operandLength = 3 then some (operandWord e.operands 1) else none))

/-- LIST_MAP (R119): code 0x06, one or three operand bytes. -/
def execListMap (s : State) : Host.Outcome State Fault Refusal :=
  .next (s.beginCommand (InboxEntry.isCommand 0x06) [1, 3] runListMap)

/-- Read Flow (R118). -/
def runReadFlow (e : InboxEntry) (s : State) : Reply :=
  s.withBank e.operands fun b => s.answerDone ((s.plan.bank b).descriptor (operandFlow e.operands 1)).bytes

/-- READ_FLOW (R118): code 0x09, two operand bytes. -/
def execReadFlow (s : State) : Host.Outcome State Fault Refusal :=
  .next (s.beginCommand (InboxEntry.isCommand 0x09) [2] runReadFlow)

/-! ## Writes (R114 to R117) -/

/-- Write Map Entry (R114): a replacement, or a new entry while the map holds fewer than 512, else Full. -/
def runWriteMapEntry (e : InboxEntry) (s : State) : Reply :=
  s.guarded e.operands fun b =>
    let c := s.plan.bank b
    let label := operandWord e.operands 1
    let isNew := (mapLookup c.map label).isNone
    if isNew && decide (512 ≤ c.map.length) then s.refuse .full
    else
      let m := mapInsert c.map label (operandFlow e.operands 3)
      (s.writeBank b { c with map := m }).answerDone (wordOf m.length ++ [boolByte isNew])

/-- WRITE_MAP_ENTRY (R114): code 0x07, four operand bytes. -/
def execWriteMapEntry (s : State) : Host.Outcome State Fault Refusal :=
  .next (s.beginCommand (InboxEntry.isCommand 0x07) [4] runWriteMapEntry)

/-- Remove Map Entry (R115). -/
def runRemoveMapEntry (e : InboxEntry) (s : State) : Reply :=
  s.guarded e.operands fun b =>
    let c := s.plan.bank b
    let label := operandWord e.operands 1
    match mapLookup c.map label with
    | none => s.refuse .missing
    | some f =>
      let m := mapRemove c.map label
      (s.writeBank b { c with map := m }).answerDone ([flowByte f] ++ wordOf m.length)

/-- REMOVE_MAP_ENTRY (R115): code 0x08, three operand bytes. -/
def execRemoveMapEntry (s : State) : Host.Outcome State Fault Refusal :=
  .next (s.beginCommand (InboxEntry.isCommand 0x08) [3] runRemoveMapEntry)

/-- A descriptor replaced by a judged record: refused with Range and the first out-of-range field, or written (R110, R116, R117). -/
def State.writeDescriptor (s : State) (b : Bank) (f : Flow) (r : DescriptorRecord) : Reply :=
  match r.badField with
  | some n => s.refuseWith .range n
  | none =>
    let c := s.plan.bank b
    (s.writeBank b { c with flows := c.flows.set f r.toDescriptor }).answerDone []

/-- Write Flow (R116). -/
def runWriteFlow (e : InboxEntry) (s : State) : Reply :=
  s.guarded e.operands fun b => s.writeDescriptor b (operandFlow e.operands 1) (operandDescriptor e.operands 2)

/-- WRITE_FLOW (R116): code 0x0A, 20 operand bytes. -/
def execWriteFlow (s : State) : Host.Outcome State Fault Refusal :=
  .next (s.beginCommand (InboxEntry.isCommand 0x0A) [20] runWriteFlow)

/-- Modify Flow (R117): a field-select set with a bit from 13 to 15 is refused with field number 13; else the resulting record is
judged and written. -/
def runModifyFlow (e : InboxEntry) (s : State) : Reply :=
  s.guarded e.operands fun b =>
    let f := operandFlow e.operands 1
    let sel := operandWord e.operands 2
    if sel.toNat ≥ 8192 then s.refuseWith .range 13
    else s.writeDescriptor b f (((s.plan.bank b).descriptor f).record.select (operandDescriptor e.operands 4) sel)

/-- MODIFY_FLOW (R117): code 0x0B, 22 operand bytes. -/
def execModifyFlow (s : State) : Host.Outcome State Fault Refusal :=
  .next (s.beginCommand (InboxEntry.isCommand 0x0B) [22] runModifyFlow)

/-! ## Jobs (R120 to R126) -/

/-- The map entries a job's Map phase works through: the active map's for Copy, the job bank's for Check (R121). -/
def State.jobEntries (s : State) (k : JobKind) (b : Bank) : List MapEntry :=
  match k with
  | .copy => s.plan.activeBank.map
  | .check => (s.plan.bank b).map

/-- The phase and progress once `done` map items are completed: the Flows phase at once when no map item is left (R121; log 14). -/
def phaseAfter (items done : Nat) : JobPhase × Nat := if items ≤ done then (.flows, 0) else (.map, done)

/-- A job started: the slot taken, the Ready mark cleared, and for Copy the map emptied (R120). -/
def State.startJob (s : State) (k : JobKind) (b : Bank) (transaction : Word16) : State :=
  let c := s.plan.bank b
  let p := phaseAfter (s.jobEntries k b).length 0
  let m := match k with
    | .copy => []
    | .check => c.map
  let s1 := s.writeBank b { c with map := m }
  { s1 with plan := { s1.plan with job := some { kind := k, bank := b, transaction := transaction, phase := p.1, progress := p.2 } } }

/-- Copy Plan or Check Plan: the checks of R112 with the JobDone interlock, then the start (R120). -/
def State.requestJob (s : State) (k : JobKind) (e : InboxEntry) : Reply :=
  s.guarded e.operands fun b =>
    if hasReport s.reports .jobDone then s.refuse .busy
    else { state := s.startJob k b e.transaction, answer := some (.accepted, []) }

/-- COPY_PLAN (R120, R122): code 0x0C, one operand byte. -/
def execCopyPlan (s : State) : Host.Outcome State Fault Refusal :=
  .next (s.beginCommand (InboxEntry.isCommand 0x0C) [1] (fun e s => s.requestJob .copy e))

/-- CHECK_PLAN (R120, R123): code 0x0D, one operand byte. -/
def execCheckPlan (s : State) : Host.Outcome State Fault Refusal :=
  .next (s.beginCommand (InboxEntry.isCommand 0x0D) [1] (fun e s => s.requestJob .check e))

/-- The end of a job: the slot emptied and JobDone posted with the outcome record, in one event (R125). -/
def State.endJob (s : State) (j : Job) (r : JobResult) : State :=
  { s with plan := { s.plan with job := none } }.post (.jobDone { job := j, result := r })

/-- The Job slot with the job advanced (R121). -/
def State.setJob (s : State) (j : Job) : State := { s with plan := { s.plan with job := some j } }

/-- The job after the completion of a map item, or of a descriptor, that does not end it (R121). -/
def Job.stepped (j : Job) (items : Nat) : Job :=
  match j.phase with
  | .map =>
    let p := phaseAfter items (j.progress + 1)
    { j with phase := p.1, progress := p.2 }
  | .flows => { j with progress := j.progress + 1 }

/-- The test of a map entry by Check Plan: DanglingFlow, then ReservedLabel (R123). -/
def State.checkEntry (s : State) (c : BankContents) (e : MapEntry) : Option CheckFailure :=
  if !(c.descriptor e.flow).present then some (.danglingFlow e.label)
  else if e.label = s.settings.managementLabel then some (.reservedLabel e.label) else none

/-- The test of a descriptor by Check Plan: DefaultFlowAbsent (R123). -/
def State.checkDescriptor (s : State) (c : BankContents) (f : Flow) : Option CheckFailure :=
  if f = s.settings.defaultFlow ∧ s.settings.unmappedPolicy = .defaultFlow ∧ !(c.descriptor f).present then
    some (.defaultFlowAbsent f)
  else none

/-- A job's outcome record at the end of the Flows phase: phase Flows, progress 256 (10_formats section 10.2). -/
def Job.finished (j : Job) : Job := { j with progress := 256 }

/-- The completion of a Copy item: the entry inserted, or the descriptor replaced; the 256th descriptor ends the job Completed
(R122). -/
def State.copyItem (s : State) (j : Job) : State :=
  let source := s.plan.activeBank
  let target := s.plan.bank j.bank
  match j.phase with
  | .map =>
    match source.map[j.progress]? with
    | some e => (s.setBank j.bank { target with map := mapInsert target.map e.label e.flow }).setJob (j.stepped source.map.length)
    | none => s.setJob { j with phase := .flows, progress := 0 }
  | .flows =>
    let f : Flow := Fin.ofNat 256 j.progress
    let s1 := s.setBank j.bank { target with flows := target.flows.set f (source.descriptor f) }
    if 255 ≤ j.progress then s1.endJob j.finished .completed else s1.setJob (j.stepped 0)

/-- The completion of a Check item: the item tested; the first failing item ends the job Failed, and descriptor 255 passing ends it
Completed with the bank's Ready mark set in the same event (R123). -/
def State.checkItem (s : State) (j : Job) : State :=
  let c := s.plan.bank j.bank
  match j.phase with
  | .map =>
    match c.map[j.progress]? with
    | some e =>
      match s.checkEntry c e with
      | some why => s.endJob { j with progress := j.progress + 1 } (.failed why)
      | none => s.setJob (j.stepped c.map.length)
    | none => s.setJob { j with phase := .flows, progress := 0 }
  | .flows =>
    match s.checkDescriptor c (Fin.ofNat 256 j.progress) with
    | some why => s.endJob { j with progress := j.progress + 1 } (.failed why)
    | none =>
      if 255 ≤ j.progress then (s.setBank j.bank { c with ready := true }).endJob j.finished .completed
      else s.setJob (j.stepped 0)

/-- JOB_ITEM_COMPLETION (R121 to R123, R125): the running job completes an item. With the slot empty there is no such event (log 2). -/
def execJobItemCompletion (s : State) : Host.Outcome State Fault Refusal :=
  .next (match s.plan.job with
    | some j =>
      match j.kind with
      | .copy => s.copyItem j
      | .check => s.checkItem j
    | none => s)

/-- Abort Job (R126): the running job ends Aborted, or NoJob. -/
def runAbortJob (_ : InboxEntry) (s : State) : Reply :=
  match s.plan.job with
  | some j => (s.endJob j .aborted).answerDone []
  | none => s.refuse .noJob

/-- ABORT_JOB (R126): code 0x0F, no operand. -/
def execAbortJob (s : State) : Host.Outcome State Fault Refusal :=
  .next (s.beginCommand (InboxEntry.isCommand 0x0F) [0] runAbortJob)

/-! ## Swap Plan (R128, R129, R71) -/

/-- The swap taken: the Active indicator flips, and the Pacing Unit flushes the queues of the flows Present in the old active bank and
Absent in the new one and sets their contexts to none (R71, R128, R129). -/
def State.swap (s : State) (b : Bank) : State :=
  let gone := fun f : Flow => (s.activeDescriptor f).present && !((s.plan.bank b).descriptor f).present
  ({ s with plan := { s.plan with active := b } }.flushQueues gone).clearContexts gone

/-- Swap Plan, judged in the order of R128. -/
def runSwapPlan (e : InboxEntry) (s : State) : Reply :=
  s.withBank e.operands fun b =>
    if s.jobRunning then s.refuse .busy
    else if b = s.plan.active then s.answerDone [b.byte]
    else if (s.plan.bank b).ready then (s.swap b).answerDone [b.byte]
    else s.refuse .notReady

/-- SWAP_PLAN (R128): code 0x0E, one operand byte. -/
def execSwapPlan (s : State) : Host.Outcome State Fault Refusal :=
  .next (s.beginCommand (InboxEntry.isCommand 0x0E) [1] runSwapPlan)

end Sys2Proof.Machine
end

