-- ==== Sys2Proof/Machine/Manage.lean ====
section
/-! DEFINITION. The commands the agent, the Pacing Unit and the Counter Bank own: settings, Identify, Restart Traffic, Read Pacing,
Flush Flow, the counter commands and Read Status (03 section 3.8, 07 sections 7.5 and 7.6, 09). -/

namespace Sys2Proof.Machine

open Sys2Proof

/-! ## Identify and the settings -/

/-- Identify (R145). -/
def runIdentify (_ : InboxEntry) (s : State) : Reply :=
  s.answerDone (be16 Config.vendorCode ++ be16 Config.partCode ++ [Config.revisionCode, s.agent.station.zeroExtend 8]
    ++ Config.capacities.flatMap be16)

/-- IDENTIFY (R145): code 0x01, no operand. -/
def execIdentify (s : State) : Host.Outcome State Fault Refusal :=
  .next (s.beginCommand (InboxEntry.isCommand 0x01) [0] runIdentify)

/-- Read Settings (R142). -/
def runReadSettings (_ : InboxEntry) (s : State) : Reply := s.answerDone s.settings.bytes

/-- READ_SETTINGS (R142): code 0x02, no operand. -/
def execReadSettings (s : State) : Host.Outcome State Fault Refusal :=
  .next (s.beginCommand (InboxEntry.isCommand 0x02) [0] runReadSettings)

/-- The new Management Label, Unmapped Policy and Default Flow all equal those in force (R143 check 2). -/
def Settings.samePlanSettings (g new : Settings) : Bool :=
  g.managementLabel == new.managementLabel && g.unmappedPolicy == new.unmappedPolicy && g.defaultFlow == new.defaultFlow

/-- The first question of R127 about a bank: does its map hold the new Management Label? -/
def BankContents.holdsLabel (c : BankContents) (g : Settings) : Bool := (mapLookup c.map g.managementLabel).isSome

/-- The second question of R127 about a bank: under the Default Flow policy, is the new Default Flow Absent in it? -/
def BankContents.lacksDefault (c : BankContents) (g : Settings) : Bool :=
  g.unmappedPolicy == .defaultFlow && !(c.descriptor g.defaultFlow).present

/-- The record replaced whole, the standby bank's Ready mark cleared when the settings conflict with its plan (R127, R143). -/
def State.replaceSettings (s : State) (g : Settings) : State :=
  let standby := s.plan.active.other
  let c := s.plan.bank standby
  let s1 := if c.holdsLabel g || c.lacksDefault g then s.writeBank standby c else s
  { s1 with agent := { s1.agent with settings := g } }

/-- Write Settings, judged in the order of R143. -/
def runWriteSettings (e : InboxEntry) (s : State) : Reply :=
  let r := operandSettings e.operands
  match r.badSetting with
  | some n => s.refuseWith .range n
  | none =>
    let g := r.toSettings
    if s.jobRunning && !s.settings.samePlanSettings g then s.refuse .busy
    else if s.plan.activeBank.holdsLabel g then s.refuseWith .conflict 1
    else if s.plan.activeBank.lacksDefault g then s.refuseWith .conflict 2
    else (s.replaceSettings g).answerDone []

/-- WRITE_SETTINGS (R143, R144): code 0x03, 12 operand bytes. -/
def execWriteSettings (s : State) : Host.Outcome State Fault Refusal :=
  .next (s.beginCommand (InboxEntry.isCommand 0x03) [12] runWriteSettings)

/-! ## Restart Traffic (R146, R147) -/

/-- Restart Traffic begun: the agent enters Restarting, with the request still to be taken by the three blocks (R146). -/
def runRestartTraffic (e : InboxEntry) (s : State) : Reply :=
  { state := { s with agent := { s.agent with execution := .restarting e.transaction false false false } }, answer := none }

/-- RESTART_TRAFFIC (R146): code 0x12, no operand. -/
def execRestartTraffic (s : State) : Host.Outcome State Fault Refusal :=
  .next (s.beginCommand (InboxEntry.isCommand 0x12) [0] runRestartTraffic)

/-- RESTART_TRAFFIC_COMPLETION (R147): once all three blocks have taken the request, its Done response is placed and recorded, and the
agent is Free; before that there is no such event (log 2). -/
def execRestartTrafficCompletion (s : State) : Host.Outcome State Fault Refusal :=
  .next (match s.agent.execution with
    | .restarting t true true true =>
      ({ s with agent := { s.agent with execution := .free } }).respond s.settings.responseLabel t 0x12 .done []
    | _ => s)

/-! ## Flush Flow and Read Pacing (R72, R73) -/

/-- Flush Flow (R72): the number of frames discarded is the result. -/
def runFlushFlow (e : InboxEntry) (s : State) : Reply :=
  let f := operandFlow e.operands 0
  (s.flushQueues (fun g => g == f)).answerDone [byteOf s.pacing.queues[f].length]

/-- FLUSH_FLOW (R72): code 0x11, one operand byte. -/
def execFlushFlow (s : State) : Host.Outcome State Fault Refusal :=
  .next (s.beginCommand (InboxEntry.isCommand 0x11) [1] runFlushFlow)

/-- Bytes padded with zeros to a length. -/
def padTo (n : Nat) (bytes : List Byte) : List Byte := bytes ++ List.replicate (n - bytes.length) 0

/-- The byte of a Gate phase (10_formats section 10.2). -/
def GatePhase.byte : GatePhase → Byte
  | .opened => 0
  | .shut => 1

/-- The eight counter bytes of a pacing record (10_formats section 10.2). -/
def PacingCounters.bytes : PacingCounters → List Byte
  | .openMode => padTo 8 []
  | .interval countdown => padTo 8 (wordOf countdown)
  | .credit c => padTo 8 (wordOf c)
  | .gate phase position released => padTo 8 ([phase.byte] ++ wordOf position ++ [released])
  | .tiered t s w e => padTo 8 (wordOf t ++ [byteOf s, byteOf w] ++ wordOf e)

/-- The place of a free value in Read Pacing and Read Status, apart from the flow indices that evaluations use. -/
def responseSite : Nat := 256

/-- The eleven bytes of a pacing record from "context present" to the counters; Generation seen and Mode seen of a context that is
none are free values (10_formats section 10.2; log 11). -/
def contextBytes (draw : Nat) (ctx : Option PacingContext) : List Byte :=
  match ctx with
  | some c => [1, c.generation, c.counters.mode.byte] ++ c.counters.bytes
  | none => [0, Config.freeByte draw responseSite 0, Config.freeByte draw responseSite 1] ++ padTo 8 []

/-- The head-age bytes of a pacing record: present and the age, or 0 and 0 (R73, 10_formats section 10.2). -/
def headAgeBytes (tick : Word32) (q : List QueuedFrame) : List Byte :=
  match q with
  | f :: _ => [1] ++ be32 (f.age tick)
  | [] => [0] ++ be32 0

/-- Read Pacing (R73). -/
def runReadPacing (e : InboxEntry) (s : State) : Reply :=
  let f := operandFlow e.operands 0
  let q := s.pacing.queues[f]
  { s with draws := s.draws + 1 }.answerDone
    ([boolByte (s.activeDescriptor f).present, byteOf q.length] ++ headAgeBytes s.pacing.tickCounter q
      ++ contextBytes s.draws s.pacing.contexts[f] ++ be32 s.pacing.tickCounter)

/-- READ_PACING (R73): code 0x10, one operand byte. -/
def execReadPacing (s : State) : Host.Outcome State Fault Refusal :=
  .next (s.beginCommand (InboxEntry.isCommand 0x10) [1] runReadPacing)

/-! ## Counters (R166, R167) -/

/-- The values of a range of counters, in index order (R166). -/
def CounterBank.values (b : CounterBank) : Nat × Nat ⊕ Nat × Nat → List Word32
  | .inl (first, count) => (b.globals.toList.drop first).take count
  | .inr (first, count) => ((b.flows.toList.drop first).take count).flatMap (fun v => v.toList)

/-- The bank with a range of counters set to 0 (R167). -/
def CounterBank.clear (b : CounterBank) : Nat × Nat ⊕ Nat × Nat → CounterBank
  | .inl (first, count) =>
    { b with globals := Vector.ofFn (fun i : Fin 14 => if first ≤ i.val ∧ i.val < first + count then 0 else b.globals[i]) }
  | .inr (first, count) =>
    { b with flows := Vector.ofFn (fun f : Flow =>
        if first ≤ f.val ∧ f.val < first + count then Vector.replicate 6 0 else b.flows[f]) }

/-- The range the operands name (R166). -/
def operandRange (ops : List Byte) : Option (Nat × Nat ⊕ Nat × Nat) :=
  counterRange (operandByte ops 0) (operandByte ops 1) (operandByte ops 2)

/-- The results of a counter command: group, First and Count echoed, then the values (R166, 10_formats section 10.2). -/
def counterResults (ops : List Byte) (values : List Word32) : List Byte :=
  [operandByte ops 0, operandByte ops 1, operandByte ops 2] ++ values.flatMap be32

/-- Read Counters (R166). -/
def runReadCounters (e : InboxEntry) (s : State) : Reply :=
  match operandRange e.operands with
  | none => s.refuse .range
  | some r => s.answerDone (counterResults e.operands (s.counters.values r))

/-- READ_COUNTERS (R166): code 0x13, three operand bytes. -/
def execReadCounters (s : State) : Host.Outcome State Fault Refusal :=
  .next (s.beginCommand (InboxEntry.isCommand 0x13) [3] runReadCounters)

/-- Read and Clear Counters (R167): the values read before the clear. -/
def runReadAndClearCounters (e : InboxEntry) (s : State) : Reply :=
  match operandRange e.operands with
  | none => s.refuse .range
  | some r => { s with counters := s.counters.clear r }.answerDone (counterResults e.operands (s.counters.values r))

/-- READ_AND_CLEAR_COUNTERS (R167): code 0x14, three operand bytes. -/
def execReadAndClearCounters (s : State) : Host.Outcome State Fault Refusal :=
  .next (s.beginCommand (InboxEntry.isCommand 0x14) [3] runReadAndClearCounters)

/-! ## Read Status (R175) -/

/-- The job's five bytes in the snapshot, 0 when no job runs (10_formats section 10.2). -/
def jobBytes : Option Job → List Byte
  | some j => [j.kind.byte, j.bank.byte, j.phase.byte] ++ wordOf j.progress
  | none => [0, 0, 0] ++ wordOf 0

/-- A started frame's three bytes in the snapshot: level, flow, Segments sent. -/
def SentFrame.bytes (c : SentFrame) : List Byte := [levelByte c.level, flowByte c.flow, byteOf c.segmentsSent]

/-- The current frame's four bytes; the three after the mark are free values when there is none (10_formats section 10.2; log 10). -/
def currentBytes (draw : Nat) : Option SentFrame → List Byte
  | some c => [1] ++ c.bytes
  | none => [0, Config.freeByte draw responseSite 0, Config.freeByte draw responseSite 1, Config.freeByte draw responseSite 2]

/-- The stack's 13 bytes: entry count, then four places, top first, unused places 0 (10_formats section 10.2). -/
def stackBytes (stack : List SentFrame) : List Byte := [byteOf stack.length] ++ padTo 12 (stack.flatMap SentFrame.bytes)

/-- The Report Queue's eight bytes: record count, then the kinds head first, unused bytes 0xFF (10_formats section 10.2). -/
def reportBytes (q : List ReportRecord) : List Byte :=
  [byteOf q.length] ++ q.map (fun r => r.kind.byte) ++ List.replicate (7 - q.length) 0xFF

/-- A set of levels in one byte, bit L for level L (10_formats section 10.2). -/
def setByte (m : BitVec 4) : Byte := m.zeroExtend 8

/-- The Ready marks in one byte: bit 0 A, bit 1 B (10_formats section 10.2). -/
def PlanStore.readyByte (p : PlanStore) : Byte := boolByte p.bankA.ready + 2 * boolByte p.bankB.ready

/-- The line states in one byte: bit 0 line-in Up, bit 1 line-out Up (10_formats section 10.2). -/
def State.linesByte (s : State) : Byte := boolByte s.lineIn.up + 2 * boolByte s.lineOut.up

/-- The status snapshot of 53 bytes (R175, 10_formats section 10.2). -/
def State.snapshot (s : State) : List Byte :=
  [s.plan.active.byte, s.plan.readyByte] ++ jobBytes s.plan.job ++ wordOf s.store.freeCount
    ++ allLevels.flatMap (fun l : Level => wordOf s.egress.lanes[l].length)
    ++ currentBytes s.draws s.egress.current ++ stackBytes s.egress.stack
    ++ [setByte s.lineOut.holdMask, setByte s.egress.pendingAborts, boolByte s.egress.streamReset, s.linesByte,
        byteOf s.agent.inbox.length, byteOf s.agent.outbox.length, byteOf s.merge.buffer.length]
    ++ reportBytes s.reports ++ be32 s.pacing.tickCounter

/-- Read Status (R175): read with its own Inbox place freed and its own Outbox place reserved (R151). -/
def runReadStatus (_ : InboxEntry) (s : State) : Reply := { s with draws := s.draws + 1 }.answerDone s.snapshot

/-- READ_STATUS (R175): code 0x04, no operand. -/
def execReadStatus (s : State) : Host.Outcome State Fault Refusal :=
  .next (s.beginCommand (InboxEntry.isCommand 0x04) [0] runReadStatus)

end Sys2Proof.Machine
end

