-- ==== Sys2Proof/Machine/Power.lean ====
section
/-! DEFINITION. The power-up reset (R131, 10_formats section 10.5). -/

namespace Sys2Proof.Machine

open Sys2Proof

/-- POWER_UP_RESET (R23, R49, R74, R89, R108, R131, R162, R164, R169): every block takes its power-up values, the station is read from
the straps; the commands still waiting and the index of free values, which are the model's own, stay. -/
def execPowerUpReset (straps : BitVec 4) (s : State) : Host.Outcome State Fault Refusal :=
  .next { State.powerUp straps with pending := s.pending, draws := s.draws }

end Sys2Proof.Machine
end

