-- ==== Sys2Proof/Machine/Dispatch.lean ====
section
/-! DEFINITION. The dispatch of the commands to their meanings, one arm per row of spec/opcode_table.json. -/

namespace Sys2Proof.Machine

open Sys2Proof

def exec (i : Instr) (s : State) : Host.Outcome State Fault Refusal :=
  match i with
  | .powerUpReset straps => Sys2Proof.Machine.execPowerUpReset straps s
  | .lineInStartDelimiter => Sys2Proof.Machine.execLineInStartDelimiter s
  | .lineInByte x => Sys2Proof.Machine.execLineInByte x s
  | .lineInEndDelimiter => Sys2Proof.Machine.execLineInEndDelimiter s
  | .lineInErrorSymbol => Sys2Proof.Machine.execLineInErrorSymbol s
  | .lineInComesUp => Sys2Proof.Machine.execLineInComesUp s
  | .lineInGoesDown => Sys2Proof.Machine.execLineInGoesDown s
  | .holdSymbol arg => Sys2Proof.Machine.execHoldSymbol arg s
  | .receivedAbortOrStreamReset symbol arg => Sys2Proof.Machine.execReceivedAbortOrStreamReset symbol arg s
  | .returnStartDelimiter => Sys2Proof.Machine.execReturnStartDelimiter s
  | .returnByte x => Sys2Proof.Machine.execReturnByte x s
  | .returnEndDelimiter => Sys2Proof.Machine.execReturnEndDelimiter s
  | .returnErrorSymbol => Sys2Proof.Machine.execReturnErrorSymbol s
  | .lineOutComesUp => Sys2Proof.Machine.execLineOutComesUp s
  | .lineOutGoesDown => Sys2Proof.Machine.execLineOutGoesDown s
  | .segmentCompletion => Sys2Proof.Machine.execSegmentCompletion s
  | .controlSymbolCompletion => Sys2Proof.Machine.execControlSymbolCompletion s
  | .tickExpiry => Sys2Proof.Machine.execTickExpiry s
  | .stallTimerExpiry l => Sys2Proof.Machine.execStallTimerExpiry l s
  | .gatePhaseChange f => Sys2Proof.Machine.execGatePhaseChange f s
  | .windowBoundary f => Sys2Proof.Machine.execWindowBoundary f s
  | .epochBoundary f => Sys2Proof.Machine.execEpochBoundary f s
  | .admissionRequest => Sys2Proof.Machine.execAdmissionRequest s
  | .returnMergeChoice => Sys2Proof.Machine.execReturnMergeChoice s
  | .lineInTransmissionCompletion => Sys2Proof.Machine.execLineInTransmissionCompletion s
  | .jobItemCompletion => Sys2Proof.Machine.execJobItemCompletion s
  | .identify => Sys2Proof.Machine.execIdentify s
  | .readSettings => Sys2Proof.Machine.execReadSettings s
  | .writeSettings => Sys2Proof.Machine.execWriteSettings s
  | .readStatus => Sys2Proof.Machine.execReadStatus s
  | .readMapEntry => Sys2Proof.Machine.execReadMapEntry s
  | .listMap => Sys2Proof.Machine.execListMap s
  | .writeMapEntry => Sys2Proof.Machine.execWriteMapEntry s
  | .removeMapEntry => Sys2Proof.Machine.execRemoveMapEntry s
  | .readFlow => Sys2Proof.Machine.execReadFlow s
  | .writeFlow => Sys2Proof.Machine.execWriteFlow s
  | .modifyFlow => Sys2Proof.Machine.execModifyFlow s
  | .copyPlan => Sys2Proof.Machine.execCopyPlan s
  | .checkPlan => Sys2Proof.Machine.execCheckPlan s
  | .swapPlan => Sys2Proof.Machine.execSwapPlan s
  | .abortJob => Sys2Proof.Machine.execAbortJob s
  | .readPacing => Sys2Proof.Machine.execReadPacing s
  | .flushFlow => Sys2Proof.Machine.execFlushFlow s
  | .restartTraffic => Sys2Proof.Machine.execRestartTraffic s
  | .restartAtLineInReceiver => Sys2Proof.Machine.execRestartAtLineInReceiver s
  | .restartAtPacingUnit => Sys2Proof.Machine.execRestartAtPacingUnit s
  | .restartAtEgressScheduler => Sys2Proof.Machine.execRestartAtEgressScheduler s
  | .restartTrafficCompletion => Sys2Proof.Machine.execRestartTrafficCompletion s
  | .readCounters => Sys2Proof.Machine.execReadCounters s
  | .readAndClearCounters => Sys2Proof.Machine.execReadAndClearCounters s
  | .malformedCommand => Sys2Proof.Machine.execMalformedCommand s

end Sys2Proof.Machine
end

