-- ==== Sys2Proof/Safety.lean ====
section
/-! DEFINITION. What a sound state of the FP-2604 is, in the terms the claims use: where every block is (R76), the laws of the
scheduler (R17, R19, R20, R35, R48), of the plan (R109 to R125), of the settings (R141), of the flow queues (R52), of reception (R78,
R92, R95, R99, R133) and of the return path (R135, R154, R160); and what an answered command leaves (R136). -/

namespace Sys2Proof.Machine

open Sys2Proof

/-! ## Where every block is (R76) -/

/-- The chains of the part: the partial chain of the frame in reception, and the chain of every frame record, by the place of the
record (04 section 4.2). -/
def State.chains (s : State) : List (List BlockNo) :=
  [s.lineIn.chain] ++ s.pacing.requests.map (fun f : FrameRecord => f.chain)
    ++ allFlows.flatMap (fun f : Flow => s.pacing.queues[f].map (fun q : QueuedFrame => q.chain))
    ++ allLevels.flatMap (fun l : Level => s.egress.lanes[l].map (fun r : ReleasedFrame => r.chain))
    ++ s.egress.current.toList.map (fun c : SentFrame => c.chain)
    ++ s.egress.stack.map (fun c : SentFrame => c.chain)

/-- Every place a block stands in: the free list, then the chains. -/
def State.blockPlaces (s : State) : List BlockNo := s.store.free ++ s.chains.flatten

/-- Each of the 1024 blocks is in exactly one place (R76). -/
def State.BlocksOnce (s : State) : Prop := ∀ b : BlockNo, s.blockPlaces.count b = 1

/-- The Frame Store's bytes are in their canonical form, and the header kept for the first block is at most four bytes, so that no
write leaves its block (04 section 4.1, R79). -/
structure State.MemoryLaw (s : State) : Prop where
  canonical : memWf s.store.mem = true
  header : s.lineIn.header.length ≤ 4

/-! ## The scheduler (01, 02) -/

/-- A frame between two of its segments: it has sent its first segment and has one still to send (R16, R17). -/
def SentFrame.begun (c : SentFrame) : Prop := 1 ≤ c.segmentsSent ∧ c.segmentsSent < blocksOf c.length

/-- The laws of the Egress Scheduler between two events, with the Line-Out Receiver beside it. -/
structure EgressScheduler.Law (e : EgressScheduler) (o : LineOutReceiver) : Prop where
  /-- Lane L holds frames whose Level is L (R1). -/
  laneLevels : ∀ l : Level, ∀ f ∈ e.lanes[l], f.level = l
  /-- Each stack entry's level is greater than that of the entry above it, so no level stands twice (R17). -/
  stackLevels : e.stack.Pairwise (fun above below => above.level < below.level)
  /-- The current frame's level is below every stack entry's (R17). -/
  currentLevel : ∀ c ∈ e.current, ∀ t ∈ e.stack, c.level < t.level
  /-- A frame on the stack is between two of its segments (R16, R17). -/
  stackBegun : ∀ c ∈ e.stack, c.begun
  /-- So is a frame held in the slot while a symbol is in flight (01 section 1.3). -/
  currentBegun : ∀ c ∈ e.current, e.segmentInFlight = false → c.begun
  /-- A segment in flight is the current frame's segment number Segments sent (R7, R8). -/
  segmentOfCurrent : ∀ g, e.inFlight = some (.segment g) →
    ∃ c, e.current = some c ∧ g.stream = c.level ∧ g.position = positionOf (blocksOf c.length) c.segmentsSent
  /-- Between two events, a current frame has something in flight (01 section 1.3). -/
  idleSlot : e.inFlight = none → e.current = none
  /-- The Drop mark stands only while a segment is in flight (R25, R40). -/
  dropInFlight : e.dropMark = true → e.segmentInFlight = true
  /-- A stream in the pending-abort set has no partial frame in the scheduler (R19). -/
  pendingGone : ∀ l, held e.pendingAborts l = true →
    (∀ c ∈ e.stack, c.level ≠ l) ∧ ∀ c ∈ e.current, c.level = l → e.dropMark = true
  /-- With a Stream Reset to be sent or in flight, the slot has no frame and the stack is empty (R20, R48). -/
  resetFirst : e.streamReset = true ∨ e.inFlight = some .streamReset → e.current = none ∧ e.stack = []
  /-- A timer that is not stopped belongs to a held level with a partial frame (R35). -/
  timersHeld : ∀ l : Level, e.timers[l] ≠ .stopped → held o.holdMask l = true ∧ e.hasPartial l = true
  /-- While line-out is Down nothing is in flight, no frame is begun and the Stream Reset is pending (R20, R22, R31, R45). -/
  down : o.state = .down → e.inFlight = none ∧ e.current = none ∧ e.stack = [] ∧ e.pendingAborts = 0
    ∧ e.streamReset = true ∧ o.holdMask = 0

/-! ## The plan, the settings and the jobs (06) -/

/-- Check Plan's tests of a map entry pass in a bank under these settings (R123). -/
def BankContents.entryPasses (c : BankContents) (g : Settings) (e : MapEntry) : Prop :=
  (c.descriptor e.flow).present = true ∧ e.label ≠ g.managementLabel

/-- A bank passes Check Plan under these settings (R123). -/
def BankContents.passes (c : BankContents) (g : Settings) : Prop :=
  (∀ e ∈ c.map, c.entryPasses g e) ∧ (g.unmappedPolicy = .defaultFlow → (c.descriptor g.defaultFlow).present = true)

/-- What a running job has done so far, with the job's bank and the active bank (R121, R122, R123). -/
def Job.sound (j : Job) (target source : BankContents) (g : Settings) : Prop :=
  match j.kind, j.phase with
  | .copy, .map => j.progress < source.map.length ∧ target.map = source.map.take j.progress
  | .copy, .flows => j.progress < 256 ∧ target.map = source.map ∧ ∀ f : Flow, f.val < j.progress → target.flows[f] = source.flows[f]
  | .check, .map => j.progress < target.map.length ∧ ∀ e ∈ target.map.take j.progress, target.entryPasses g e
  | .check, .flows => j.progress < 256 ∧ (∀ e ∈ target.map, target.entryPasses g e) ∧
      (g.unmappedPolicy = .defaultFlow → g.defaultFlow.val < j.progress → (target.descriptor g.defaultFlow).present = true)

/-- The laws of the Plan Store, with the settings and the Report Queue. -/
structure State.PlanLaw (s : State) : Prop where
  /-- The entries of a map stand in ascending label order, no label twice (R109). -/
  sorted : ∀ b, mapSorted (s.plan.bank b).map = true
  /-- A map holds at most 512 entries (R109). -/
  bounded : ∀ b, (s.plan.bank b).map.length ≤ 512
  /-- Every descriptor in both banks is valid (R110). -/
  valid : ∀ b f, ((s.plan.bank b).descriptor f).record.badField = none
  /-- The active bank is Ready (R111). -/
  activeReady : s.plan.activeBank.ready = true
  /-- A Ready bank passes Check Plan against the settings in force (R113). -/
  readyPasses : ∀ b, (s.plan.bank b).ready = true → (s.plan.bank b).passes s.settings
  /-- A job is on the standby bank, whose Ready mark is clear, and has done its items so far (R112, R120 to R123). -/
  jobSound : ∀ j, s.plan.job = some j →
    j.bank ≠ s.plan.active ∧ (s.plan.bank j.bank).ready = false ∧ j.sound (s.plan.bank j.bank) s.plan.activeBank s.settings
  /-- The Job slot and a pending JobDone record are never both occupied (R120). -/
  interlock : s.plan.job ≠ none → hasReport s.reports .jobDone = false
  /-- A JobDone record holds one occurrence (R125, R174). -/
  jobDoneOnce : ∀ r ∈ s.reports, r.kind = .jobDone → r.occurrences = 1

/-- Every setting lies in its range (R141). The other six settings take every value of their types. -/
structure State.SettingsLaw (s : State) : Prop where
  tickPeriod : 1 ≤ s.settings.tickPeriod.toNat ∧ s.settings.tickPeriod.toNat ≤ 4096
  reserveFloor : s.settings.reserveFloor.toNat ≤ 128

/-- The laws of the flow queues (R52). -/
structure State.QueueLaw (s : State) : Prop where
  /-- Every record in a flow's queue belongs to that flow. -/
  flows : ∀ flow : Flow, ∀ f ∈ s.pacing.queues[flow], f.flow = flow
  /-- A flow queue never holds more than 64 frames. -/
  bounded : ∀ flow : Flow, s.pacing.queues[flow].length ≤ 64

/-- The law of the Report Queue: never two records of one kind, and Occurrences from 1 to 65535 (R169). -/
structure State.ReportLaw (s : State) : Prop where
  kinds : (s.reports.map ReportRecord.kind).Nodup
  occurrences : ∀ r ∈ s.reports, 1 ≤ r.occurrences ∧ r.occurrences ≤ 65535

/-! ## Reception (04, 05) -/

/-- A stored frame is 8 to 1024 bytes long and has the blocks its length asks for (00 section 3.1, R99). -/
def FrameRecord.fits (f : FrameRecord) : Prop := 8 ≤ f.length ∧ f.length ≤ 1024 ∧ f.chain.length = blocksOf f.length

/-- The number of blocks a forward frame has asked for once this many of its bytes have been presented (R79). -/
def blocksAsked (presented : Nat) : Nat := if presented ≤ 4 then 0 else blocksOf presented

/-- The laws of the frame in reception, of the Inbox and of the stored frames. -/
structure State.ReceptionLaw (s : State) : Prop where
  /-- The Inbox holds at most 4 commands (R133). -/
  inboxBound : s.agent.inbox.length ≤ 4
  /-- Only the tail of the Inbox can be incomplete (R133). -/
  inboxTail : ∀ e ∈ s.agent.inbox.dropLast, e.complete = true
  /-- An incomplete entry belongs to the Management frame in Keep (R95). -/
  inboxPlace : (∃ e ∈ s.agent.inbox, e.complete = false) →
    s.lineIn.state = .keep ∧ s.lineIn.overflowed = false ∧ s.lineIn.restarted = false ∧ s.lineIn.overLength = false ∧
      ∃ label, s.classifier = some { label := label, kind := .management, inboxPlace := true }
  /-- The classification exists from the fourth byte to the frame's end (05 section 5.3). -/
  classified : s.classifier.isSome = true ↔ s.lineIn.state = .keep ∨ s.lineIn.state = .drain
  /-- A record belongs to the Forward frame in Keep (R78, R82, R84, R106). -/
  record : ∀ r, s.lineIn.record = some r →
    s.lineIn.state = .keep ∧ ∃ label place, s.classifier = some { label := label, kind := .forward r.flow r.reserveClass,
                                                                   inboxPlace := place }
  /-- The four most recent bytes are held back (R93). -/
  heldBack : s.lineIn.holdBack.length = min s.lineIn.byteCount 4
  /-- The header is classified at the fourth byte (R94). -/
  counted : (s.lineIn.state = .header → s.lineIn.byteCount < 4) ∧
    (s.lineIn.state = .keep ∨ s.lineIn.state = .drain → 4 ≤ s.lineIn.byteCount)
  /-- A frame carries no mark before its classification (R92, R94). -/
  unmarked : s.lineIn.state = .header →
    s.lineIn.truncated = false ∧ s.lineIn.overLength = false ∧ s.lineIn.overflowed = false ∧ s.lineIn.restarted = false
  /-- A Forward frame in Keep has the blocks its presented bytes ask for, and at most 1024 of them are presented (R79, R84). -/
  partialChain : ∀ label f cls place, s.classifier = some { label := label, kind := .forward f cls, inboxPlace := place } →
    s.lineIn.state = .keep →
      s.lineIn.byteCount - 4 ≤ 1024 ∧ s.lineIn.chain.length = blocksAsked (s.lineIn.byteCount - 4)
  /-- Every frame handed over, queued, released, current or suspended fits its chain (R7, R99). -/
  requestsFit : ∀ f ∈ s.pacing.requests, f.fits
  queuesFit : ∀ flow : Flow, ∀ f ∈ s.pacing.queues[flow], f.fits
  lanesFit : ∀ l : Level, ∀ f ∈ s.egress.lanes[l], f.fits
  currentFits : ∀ f ∈ s.egress.current, f.fits
  stackFits : ∀ f ∈ s.egress.stack, f.fits

/-! ## The return path and the Outbox (07, 08) -/

/-- The laws of the Return Buffer, the Outbox and the line-in transmitter. -/
structure State.ReturnLaw (s : State) : Prop where
  /-- The Return Buffer holds at most 2 frames, and only its tail can be incomplete (R154). -/
  bufferBound : s.merge.buffer.length ≤ 2
  bufferTail : ∀ e ∈ s.merge.buffer.dropLast, e.complete = true
  /-- A place is being filled exactly while the receiver is Storing (R152, R153). -/
  storing : s.lineOut.state = .storing ↔ ∃ e ∈ s.merge.buffer, e.complete = false
  /-- A kept frame is 12 to 1028 bytes on the line (R153). -/
  sizes : ∀ e ∈ s.merge.buffer, e.bytes.length ≤ 1028 ∧ (e.complete = true → 12 ≤ e.bytes.length)
  /-- The Outbox holds at most 2 responses, reserved entries included (R135). -/
  outboxBound : s.agent.outbox.length ≤ 2
  /-- An entry is reserved and not ready exactly while Restart Traffic is in progress, and it is the tail (R135, R147). -/
  reserved : (s.agent.execution = .free → OutboxEntry.reserved ∉ s.agent.outbox) ∧
    (s.agent.execution ≠ .free → ∃ before, s.agent.outbox = before ++ [.reserved] ∧ OutboxEntry.reserved ∉ before)
  /-- A return frame on the line is the complete head of the Return Buffer (R154, R159). -/
  busyReturn : ∀ bytes, s.merge.transmitter = .busy .returnFrame bytes →
    ∃ rest, s.merge.buffer = { complete := true, bytes := bytes } :: rest
  /-- A response on the line is the ready head of the Outbox, with its frame check (R135, R159). -/
  busyResponse : ∀ bytes, s.merge.transmitter = .busy .response bytes →
    ∃ r rest, s.agent.outbox = .ready r :: rest ∧ bytes = withFrameCheck r.bytes
  /-- The transmitter is Down exactly while line-in is Down (R91, R160, R161). -/
  transmitterDown : s.merge.transmitter = .down ↔ s.lineIn.state = .down

/-! ## What an answered command leaves (R134 to R137) -/

/-- The agent may begin this entry now (R134): it is the complete head of the Inbox, the execution state is Free and the Outbox has
a place. -/
structure State.MayBegin (s : State) (e : InboxEntry) : Prop where
  head : s.agent.inbox.head? = some e
  complete : e.complete = true
  free : s.agent.execution = .free
  room : s.agent.outbox.length < 2

/-- The entry is not a repeat of the last transaction (R136 step 1, R138). -/
def State.Fresh (s : State) (e : InboxEntry) : Prop :=
  ∀ l, s.agent.last = some l → ¬ (l.transaction = e.transaction ∧ l.code = e.code)

/-- The agent may begin this entry, and it is a new command of this code with an operand length from this list (R134, R136). -/
structure State.Begins (s : State) (code : Byte) (lengths : List Nat) (e : InboxEntry) : Prop where
  mayBegin : s.MayBegin e
  fresh : s.Fresh e
  isCommand : e.kind = 0x01#8
  isCode : e.code = code
  hasLength : e.operandLength ∈ lengths

/-- The response to an entry, Repeat clear (R136 step 4, R137). -/
def responseTo (label : Word16) (e : InboxEntry) (st : Status) (results : List Byte) : Response :=
  { label := label, transaction := e.transaction, code := e.code, status := st, repeated := false, results := results }

/-- The part once the agent has begun the head entry and answered it: the entry has left the Inbox, the response is at the tail of the
Outbox and in the Last Transaction record (R134 to R137). The label is the Response Label at the start of the event. -/
def State.answered (s : State) (label : Word16) (e : InboxEntry) (st : Status) (results : List Byte) : State :=
  { s with agent := { s.agent with
      inbox := s.agent.inbox.tail,
      outbox := s.agent.outbox ++ [.ready (responseTo label e st results)],
      last := some { transaction := e.transaction, code := e.code, response := responseTo label e st results } } }

/-- The part once a command that changes nothing else has been answered. -/
def State.answer (s : State) (e : InboxEntry) (st : Status) (results : List Byte) : State :=
  s.answered s.settings.responseLabel e st results

/-- The twenty commands of the catalogue: the row of the table, the Command Code and the operand lengths accepted (07 section 7.8,
10_formats section 10.2). -/
def catalogue : List (Instr × Byte × List Nat) := [
  (.identify, 0x01, [0]), (.readSettings, 0x02, [0]), (.writeSettings, 0x03, [12]), (.readStatus, 0x04, [0]),
  (.readMapEntry, 0x05, [3]), (.listMap, 0x06, [1, 3]), (.writeMapEntry, 0x07, [4]), (.removeMapEntry, 0x08, [3]),
  (.readFlow, 0x09, [2]), (.writeFlow, 0x0A, [20]), (.modifyFlow, 0x0B, [22]), (.copyPlan, 0x0C, [1]), (.checkPlan, 0x0D, [1]),
  (.swapPlan, 0x0E, [1]), (.abortJob, 0x0F, [0]), (.readPacing, 0x10, [1]), (.flushFlow, 0x11, [1]),
  (.restartTraffic, 0x12, [0]), (.readCounters, 0x13, [3]), (.readAndClearCounters, 0x14, [3])]

end Sys2Proof.Machine
end

