-- ==== Sys2Proof/Certificates/Slice0/Obligations.lean ====
section
/-! DEFINITION. The statements for the provers. Each says what a rule of spec/ says the part does, with what the command leaves
unchanged: an equation that gives the whole next state, or clauses that name every block. -/

open Sys2Proof Sys2Proof.Machine

/-! ## The machine -/

/-- One step is the command at the front of the queue, run with the queue's rest; with an empty queue the part idles. The queue and its
idling are the model's (log 1). -/
def Obligations.StepRunsTheFrontCommand : Prop :=
  (∀ (s : State) (c : Instr) (rest : List Instr), s.pending = c :: rest → step s = exec c { s with pending := rest }) ∧
  (∀ s : State, s.pending = [] → step s = .next s)

/-- Every command is taken in every state: no command faults or is refused, and none touches the queue (00_scope sections 3.5 and 3.6: a
refused management command is answered, and changes nothing else). That an event the part's state does not admit leaves the part as it is,
is the model's reading (log 2). -/
def Obligations.EveryCommandCompletes : Prop :=
  ∀ (c : Instr) (s : State), ∃ t, exec c s = .next t ∧ t.pending = s.pending

/-- POWER_UP_RESET leaves every block with its power-up values, whatever the part held (R23, R31, R49, R74, R77, R89, R108, R131, R162,
R164, R169). The queue and the index of free values are the model's (logs 1 and 4). -/
def Obligations.PowerUpResetLeavesPowerUpValues : Prop :=
  ∀ (straps : BitVec 4) (s : State), ∃ t, exec (.powerUpReset straps) s = .next t ∧
    t.pending = s.pending ∧ t.draws = s.draws ∧
    t.lineIn.state = .down ∧ t.lineIn.record = none ∧ t.classifier = none ∧
    t.store.free = List.finRange 1024 ∧
    t.plan.active = .bankA ∧ t.plan.bankA.ready = true ∧ t.plan.bankB.ready = false ∧ t.plan.job = none ∧
    (∀ b, (t.plan.bank b).map = [] ∧ ∀ f : Flow, (t.plan.bank b).flows[f] = Descriptor.powerUp) ∧
    t.pacing.tickCounter = 0 ∧ t.pacing.period = 100 ∧ t.pacing.requests = [] ∧
    (∀ f : Flow, t.pacing.queues[f] = [] ∧ t.pacing.contexts[f] = none) ∧
    (∀ l : Level, t.egress.lanes[l] = [] ∧ t.egress.timers[l] = .stopped) ∧
    t.egress.current = none ∧ t.egress.inFlight = none ∧ t.egress.dropMark = false ∧ t.egress.stack = [] ∧
    t.egress.pendingAborts = 0 ∧ t.egress.streamReset = true ∧
    t.lineOut = { state := .down, holdMask := 0 } ∧
    t.merge = { buffer := [], lastServed := .agentSide, transmitter := .down } ∧
    t.agent.inbox = [] ∧ t.agent.outbox = [] ∧ t.agent.execution = .free ∧ t.agent.last = none ∧ t.agent.station = straps ∧
    t.agent.settings = { managementLabel := BitVec.ofNat 16 (0xFFF0 + straps.toNat),
                         responseLabel := BitVec.ofNat 16 (0xFFE0 + straps.toNat), tickPeriod := 100, reserveFloor := 32,
                         stallLimit := 5000, unmappedPolicy := .discard, defaultFlow := 0, reportEnable := 0x7F#7 } ∧
    (∀ c, t.counters.read c = 0) ∧ (∀ f c, t.counters.readFlow f c = 0) ∧ t.reports = []

/-- The state after reset meets every law. The canonical form of the store's bytes among them is the model's representation (log 6). -/
def Obligations.ResetMeetsEveryLaw : Prop :=
  State.reset.BlocksOnce ∧ State.reset.MemoryLaw ∧ State.reset.egress.Law State.reset.lineOut ∧ State.reset.PlanLaw ∧
    State.reset.SettingsLaw ∧ State.reset.QueueLaw ∧ State.reset.ReportLaw ∧ State.reset.ReceptionLaw ∧ State.reset.ReturnLaw

/-- Every step keeps each of the 1024 blocks in exactly one place: the free list, one record's chain, or the partial chain (R76). The laws
of reception are a premise: with no frame in reception there is no record whose chain a new frame could lose (StepKeepsReceptionLaw). -/
def Obligations.StepKeepsBlocksOnce : Prop :=
  ∀ s t : State, s.ReceptionLaw → s.BlocksOnce → step s = .next t → t.BlocksOnce

/-- Every step keeps the laws of the scheduler: the stack's two laws (R17), the pending-abort law (R19), the Stream Reset first (R20,
R48), timers only for held partial frames (R35), and an idle slot without a frame (01 section 1.3). -/
def Obligations.StepKeepsSchedulerLaw : Prop :=
  ∀ s t : State, s.egress.Law s.lineOut → step s = .next t → t.egress.Law t.lineOut

/-- Every step keeps the laws of the plan: ordered and bounded maps (R109), valid descriptors (R110), a Ready active bank (R111), Ready
banks that pass Check Plan against the settings in force (R113), and the JobDone interlock (R120, R125); every setting in its range
(R141); and, since a Depth Limit is then at most 64, the flow queues, whose records each belong to the queue's flow and which hold at most
64 (R52). -/
def Obligations.StepKeepsPlanLaw : Prop :=
  ∀ s t : State, s.PlanLaw → step s = .next t →
    t.PlanLaw ∧ (s.SettingsLaw → t.SettingsLaw) ∧ (s.QueueLaw → t.QueueLaw)

/-- Every step keeps the Frame Store's bytes in their canonical form, inside the 65,536 bytes (04 section 4.1), and the Report Queue free
of two records of one kind, with Occurrences from 1 to 65535 (R169). The canonical form, the written bytes alone by strictly rising
address, is the model's representation of the store and not the spec's (log 6). -/
def Obligations.StepKeepsMemoryAndReportLaws : Prop :=
  ∀ s t : State, step s = .next t → (s.MemoryLaw → t.MemoryLaw) ∧ (s.ReportLaw → t.ReportLaw)

/-- Every step keeps the laws of reception: the Inbox (R133), the place and the record of the frame in reception (R78, R95), and every
stored frame with the blocks its length asks for (R79, R99). -/
def Obligations.StepKeepsReceptionLaw : Prop :=
  ∀ s t : State, s.ReceptionLaw → step s = .next t → t.ReceptionLaw

/-- Every step keeps the laws of the Return Buffer (R154), of the Outbox (R135) and of the line-in transmitter (R159 to R161). The laws
of reception are a premise: while line-in is Down there is no frame that Restart Traffic could drain (StepKeepsReceptionLaw). -/
def Obligations.StepKeepsReturnLaw : Prop :=
  ∀ s t : State, s.ReceptionLaw → s.ReturnLaw → step s = .next t → t.ReturnLaw

/-! ## Reception on line-in -/

/-- LINE_IN_START_DELIMITER (R92): with no frame in reception a frame begins, holding nothing; with a frame in reception that frame first
ends marked bad, as an End delimiter would end it; while line-in is Down there is no report (log 2). -/
def Obligations.LineInStartDelimiterBeginsAFrame : Prop :=
  ∀ s : State,
    (s.lineIn.state = .idle →
      exec .lineInStartDelimiter s = .next { s with lineIn := LineInReceiver.empty .header }) ∧
    (s.lineIn.state.inFrame = true → ∃ t,
      exec .lineInEndDelimiter { s with lineIn := { s.lineIn with bad := true } } = .next t ∧
      exec .lineInStartDelimiter s = .next { t with lineIn := LineInReceiver.empty .header }) ∧
    (s.lineIn.state = .down → exec .lineInStartDelimiter s = .next s)

/-- LINE_IN_BYTE where nothing is presented or classified, LINE_IN_ERROR_SYMBOL in every state, and LINE_IN_END_DELIMITER with no frame in
reception (R92, R93): in Drain, and in Header before the fourth byte, a byte is counted, joins the header while that has fewer than four
bytes, enters the hold-back and pushes the oldest byte of a full one into the CRC-32, and nothing else changes; an error symbol marks the
frame in reception bad and changes nothing else; with no frame in reception a byte, an error symbol and an End delimiter are discarded and
nothing is counted (of a line that is Down: log 2). -/
def Obligations.ReportsJoinTheFrameInReception : Prop :=
  ∀ (s : State) (b : Byte),
    (s.lineIn.state = .drain ∨ (s.lineIn.state = .header ∧ s.lineIn.byteCount + 1 ≠ 4) →
      ∃ r, exec (.lineInByte b) s = .next { s with lineIn := r } ∧ r.byteCount = s.lineIn.byteCount + 1 ∧
        r = { s.lineIn with byteCount := r.byteCount, holdBack := r.holdBack, crc := r.crc, header := r.header } ∧
        r.header = (if s.lineIn.header.length < 4 then s.lineIn.header ++ [b] else s.lineIn.header) ∧
        (s.lineIn.holdBack.length < 4 → r.holdBack = s.lineIn.holdBack ++ [b] ∧ r.crc = s.lineIn.crc) ∧
        (∀ oldest rest, s.lineIn.holdBack = oldest :: rest → rest.length = 3 →
          r.holdBack = rest ++ [b] ∧ r.crc = crc32Byte s.lineIn.crc oldest)) ∧
    (s.lineIn.state = .idle ∨ s.lineIn.state = .down →
      exec (.lineInByte b) s = .next s ∧ exec .lineInEndDelimiter s = .next s) ∧
    exec .lineInErrorSymbol s =
      .next (if s.lineIn.state = .idle ∨ s.lineIn.state = .down then s else { s with lineIn := { s.lineIn with bad := true } })

/-- The hold-back and the check (R93, R177): after any bytes of a frame, the last four are held back, the CRC-32 has been computed over
all the others, and the check is good exactly when the frame is not marked bad and the four held-back bytes are the frame check of the
others, most significant byte first. The register is preset to 0xFFFFFFFF, a byte enters it most significant bit first under the generator
0x04C11DB7, and the frame check is the register inverted. -/
def Obligations.HoldBackHoldsTheFrameCheck : Prop :=
  ∀ (bytes : List Byte) (r : LineInReceiver), r = bytes.foldl LineInReceiver.take (LineInReceiver.empty .header) →
    r.byteCount = bytes.length ∧ r.holdBack = bytes.drop (bytes.length - 4) ∧ r.header = bytes.take 4 ∧
    r.crc = crc32Register (bytes.take (bytes.length - 4)) ∧
    (r.checkGood = true ↔
      4 ≤ bytes.length ∧ bytes.drop (bytes.length - 4) = be32 (frameCheck (bytes.take (bytes.length - 4)))) ∧
    { r with bad := true }.checkGood = false ∧
    crc32Register [] = 0xFFFFFFFF#32 ∧ frameCheck bytes = ~~~ (crc32Register bytes) ∧
    ∀ b : Byte, crc32Register (bytes ++ [b]) =
      Nat.iterate (fun c : Word32 => if c.getLsbD 31 then (c <<< 1) ^^^ 0x04C11DB7#32 else c <<< 1) 8
        (crc32Register bytes ^^^ (b ++ 0#24))

/-- LINE_IN_BYTE at a Management frame's fourth byte (R94, R95): with one of the four Inbox places free the frame takes the tail place,
incomplete, and is kept; with all four taken it drains, InboxOverflows is counted and InboxOverflow posted. -/
def Obligations.ManagementHeaderTakesAnInboxPlace : Prop :=
  ∀ (s : State) (b : Byte) (r : LineInReceiver),
    s.lineIn.state = .header → s.lineIn.byteCount = 3 → r = s.lineIn.take b → r.label = s.settings.managementLabel →
    exec (.lineInByte b) s = .next
      (if s.agent.inbox.length < 4 then
        { s with lineIn := { r with state := .keep },
                 classifier := some { label := r.label, kind := .management, inboxPlace := true },
                 agent := { s.agent with inbox := s.agent.inbox ++ [{ complete := false, bytes := [] }] } }
      else
        ({ s with lineIn := { r with state := .drain, overflowed := true },
                  classifier := some { label := r.label, kind := .management, inboxPlace := false } }.count
          .inboxOverflows).post .inboxOverflow)

/-- LINE_IN_BYTE at the fourth byte of any other frame (R80, R94, R97): a label of the active map names the flow; a label not in it goes
to a Present Default Flow under that policy and is otherwise drained as unmapped. The reserve class is 0 when the flow's active Urgency is
0, else 1. -/
def Obligations.ForwardHeaderIsClassified : Prop :=
  ∀ (s : State) (b : Byte) (r : LineInReceiver),
    s.lineIn.state = .header → s.lineIn.byteCount = 3 → r = s.lineIn.take b → r.label ≠ s.settings.managementLabel →
    mapSorted s.plan.activeBank.map = true →
    let kept : Flow → State := fun f =>
      { s with lineIn := { r with state := .keep },
               classifier := some { label := r.label,
                                    kind := .forward f (if (s.plan.activeBank.flows[f]).urgency = 0 then .class0 else .class1),
                                    inboxPlace := false } }
    (∀ f, MapEntry.mk r.label f ∈ s.plan.activeBank.map → exec (.lineInByte b) s = .next (kept f)) ∧
    ((∀ e ∈ s.plan.activeBank.map, e.label ≠ r.label) →
      exec (.lineInByte b) s = .next
        (if s.settings.unmappedPolicy = .defaultFlow ∧ (s.plan.activeBank.flows[s.settings.defaultFlow]).present = true then
          kept s.settings.defaultFlow
        else { s with lineIn := { r with state := .drain },
                      classifier := some { label := r.label, kind := .unmapped, inboxPlace := false } }))

/-- LINE_IN_BYTE in Keep when byte number k of the frame leaves the hold-back and opens no block (R79, R93): a forward frame's byte is
written at place k mod 64 of the last block of its partial chain, and every other byte of the store reads as before; a management frame's
byte is written behind the others of its incomplete Inbox entry. -/
def Obligations.PresentedByteIsStored : Prop :=
  ∀ (s : State) (b oldest x y z : Byte) (c : Classification) (k : Nat),
    s.lineIn.state = .keep → s.lineIn.holdBack = [oldest, x, y, z] → s.classifier = some c → s.lineIn.byteCount = k + 4 →
    (∀ f cls last, c.kind = .forward f cls → 4 < k → k < 1024 → k % 64 ≠ 0 → s.lineIn.chain.getLast? = some last →
      ∃ m, exec (.lineInByte b) s = .next { s with lineIn := s.lineIn.take b, store := { s.store with mem := m } } ∧
        ∀ a, memRead m a = if a = blockAddress last (k % 64) then some oldest else memRead s.store.mem a) ∧
    (∀ f cls, c.kind = .forward f cls → k < 4 → exec (.lineInByte b) s = .next { s with lineIn := s.lineIn.take b }) ∧
    (c.kind = .management → k < 256 →
      exec (.lineInByte b) s = .next { s with
        lineIn := s.lineIn.take b,
        agent := { s.agent with inbox := s.agent.inbox.map (fun e =>
          if e.complete then e else { e with bytes := e.bytes ++ [oldest] }) } })

/-- LINE_IN_BYTE when the byte presented opens a block, at bytes 4, 64, 128, ... 960 (R77, R79, R81, R82): class 0 is granted while a
block is free, class 1 while more blocks than the Reserve Floor are free; a granted block is the next of the free list, joins the tail of
the partial chain and receives the presented bytes, the header first at byte 4; a refused request truncates the frame, which returns its
partial chain and drains, and counts and reports nothing. -/
def Obligations.BlockRequestIsGrantedOrTruncates : Prop :=
  ∀ (s : State) (b oldest x y z : Byte) (label : Word16) (place : Bool) (f : Flow) (cls : ReserveClass) (k : Nat),
    s.lineIn.state = .keep → s.lineIn.holdBack = [oldest, x, y, z] → s.lineIn.byteCount = k + 4 →
    s.classifier = some { label := label, kind := .forward f cls, inboxPlace := place } →
    s.lineIn.header.length = 4 → k = 4 ∨ (64 ≤ k ∧ k < 1024 ∧ k % 64 = 0) →
    (∀ blk rest, s.store.free = blk :: rest → cls = .class0 ∨ s.settings.reserveFloor.toNat < s.store.free.length →
      ∃ m, exec (.lineInByte b) s = .next { s with
          lineIn := { s.lineIn.take b with
            record := some { flow := f, reserveClass := cls, chain := s.lineIn.chain ++ [blk] } },
          store := { mem := m, free := rest } } ∧
        ∀ a, memRead m a =
          if k = 4 ∧ blockAddress blk 0 ≤ a ∧ a < blockAddress blk 5 then (s.lineIn.header ++ [oldest])[a - blockAddress blk 0]?
          else if k ≠ 4 ∧ a = blockAddress blk 0 then some oldest
          else memRead s.store.mem a) ∧
    (s.store.free = [] ∨ (cls = .class1 ∧ s.store.free.length ≤ s.settings.reserveFloor.toNat) →
      exec (.lineInByte b) s = .next { s with
        lineIn := { s.lineIn.take b with state := .drain, record := none, truncated := true },
        store := { s.store with free := s.lineIn.chain.reverse ++ s.store.free } })

/-- LINE_IN_BYTE when byte 1024 of a forward frame, or byte 256 of a management frame, is to be presented (R84, R96): the frame is marked
over-length, gives up its blocks as one return, or its Inbox place, and drains; nothing is counted yet. -/
def Obligations.OverLengthFrameGivesUpItsStorage : Prop :=
  ∀ (s : State) (b oldest x y z : Byte) (c : Classification) (k : Nat),
    s.lineIn.state = .keep → s.lineIn.holdBack = [oldest, x, y, z] → s.classifier = some c → s.lineIn.byteCount = k + 4 →
    (∃ f cls, c.kind = .forward f cls ∧ 1024 ≤ k) ∨ (c.kind = .management ∧ 256 ≤ k) →
    exec (.lineInByte b) s = .next { s with
      lineIn := { s.lineIn.take b with state := .drain, record := none, overLength := true },
      store := { s.store with free := s.lineIn.chain.reverse ++ s.store.free },
      classifier := some { c with inboxPlace := false },
      agent := { s.agent with inbox := s.agent.inbox.filter (fun e => e.complete) } }

/-- LINE_IN_END_DELIMITER of a good frame (R98 rows 9 and 10, R99, R100): LineInFrames is counted and the receiver is Idle; a command
stays in its Inbox place, now complete, and ManagementFrames is counted; a forward frame is handed to the Pacing Unit with its Length and
its chain, and nothing else is counted. The fields of the Idle receiver, with no frame in reception, are the model's choice (log 25), and
so is the list at whose tail the request stands until it is taken (log 7). -/
def Obligations.GoodFrameIsKept : Prop :=
  ∀ (s : State) (c : Classification),
    s.classifier = some c → s.lineIn.state = .keep → s.lineIn.checkGood = true → 12 ≤ s.lineIn.byteCount →
    s.lineIn.truncated = false → s.lineIn.overLength = false → s.lineIn.overflowed = false → s.lineIn.restarted = false →
    let ended : State := { s with lineIn := LineInReceiver.empty .idle, classifier := none }.count .lineInFrames
    (c.kind = .management → s.lineIn.record = none →
      exec .lineInEndDelimiter s = .next
        { ended.count .managementFrames with agent := { s.agent with
            inbox := s.agent.inbox.map (fun e => { e with complete := true }) } }) ∧
    (∀ f cls r, c.kind = .forward f cls → s.lineIn.record = some r →
      exec .lineInEndDelimiter s = .next { ended with
        pacing := { s.pacing with
          requests := s.pacing.requests ++ [{ toReceptionRecord := r, length := s.lineIn.byteCount - 4 }] } })

/-- LINE_IN_END_DELIMITER of a frame that is thrown away (R98 rows 1 to 8, R83): LineInFrames is counted, the frame's blocks go back as
one return, its Inbox place is freed by rows 6 and 7, and the first row that applies counts and reports. The fields of the Idle receiver,
with no frame in reception, are the model's choice (log 25). -/
def Obligations.DiscardedFrameIsCountedOnce : Prop :=
  ∀ s : State, s.lineIn.state.inFrame = true →
    let gone : State := { s with
      lineIn := LineInReceiver.empty .idle, classifier := none,
      store := { s.store with free := s.lineIn.chain.reverse ++ s.store.free } }.count .lineInFrames
    let freed : State := { gone with agent := { gone.agent with inbox := gone.agent.inbox.filter (fun e => e.complete) } }
    (s.classifier = none ∨ s.lineIn.byteCount < 4 →
      exec .lineInEndDelimiter s = .next (gone.count .lengthErrors)) ∧
    (∀ c, s.classifier = some c → 4 ≤ s.lineIn.byteCount →
      (s.lineIn.overflowed = true ∨ s.lineIn.restarted = true → exec .lineInEndDelimiter s = .next gone) ∧
      (s.lineIn.overflowed = false → s.lineIn.restarted = false →
        (∀ f cls, c.kind = .forward f cls → s.lineIn.truncated = true →
          exec .lineInEndDelimiter s = .next
            (((gone.countFlow f .storeDiscards).count .storeExhausted).post (.storeExhausted f))) ∧
        ((∀ f cls, c.kind ≠ .forward f cls) ∨ s.lineIn.truncated = false →
          (s.lineIn.overLength = true → exec .lineInEndDelimiter s = .next (gone.count .lengthErrors)) ∧
          (s.lineIn.overLength = false → s.lineIn.checkGood = false →
            exec .lineInEndDelimiter s = .next ((freed.count .checkErrors).post (.checkError c.label))) ∧
          (s.lineIn.overLength = false → s.lineIn.checkGood = true → s.lineIn.byteCount < 12 →
            exec .lineInEndDelimiter s = .next (freed.count .lengthErrors)) ∧
          (s.lineIn.overLength = false → s.lineIn.checkGood = true → 12 ≤ s.lineIn.byteCount → c.kind = .unmapped →
            exec .lineInEndDelimiter s = .next ((gone.count .unmappedDiscards).post (.unmappedLabel c.label))))))

/-- LINE_IN_COMES_UP (R91, R105, R161): the receiver is Idle with nothing in reception, LineState naming line-in is posted, and the
line-in transmitter is free; of a line that is Up it is not an event. LINE_IN_GOES_DOWN (R104, R150, R160): the frame in reception is
lost, its blocks returned and its Inbox place freed, and only a truncated one not yet counted by Restart Traffic is counted; the frame on
line-in transmit is lost and leaves its place, a return frame counted in ReturnDrops; of a line that is Down it is not an event (R91).
That a frame marked by Restart Traffic is not counted again is the model's reading (log 17), and the fields of a receiver with no frame in
reception are its choice (log 25). -/
def Obligations.LineInComesUpAndGoesDown : Prop :=
  ∀ s : State,
    exec .lineInComesUp s =
      .next (if s.lineIn.state = .down then
          { s with lineIn := LineInReceiver.empty .idle, merge := { s.merge with transmitter := .free } }.post (.lineState .lineIn)
        else s) ∧
    (s.lineIn.state = .down → exec .lineInGoesDown s = .next s) ∧
    (s.lineIn.state ≠ .down →
      let lost : State := { s with
        lineIn := LineInReceiver.empty .down, classifier := none,
        store := { s.store with free := s.lineIn.chain.reverse ++ s.store.free },
        agent := { s.agent with inbox := s.agent.inbox.filter (fun e => e.complete) } }
      let counted : State := match s.classifier with
        | some { label := _, kind := .forward f _, inboxPlace := _ } =>
          if s.lineIn.truncated && !s.lineIn.restarted then
            ((lost.countFlow f .storeDiscards).count .storeExhausted).post (.storeExhausted f)
          else lost
        | _ => lost
      exec .lineInGoesDown s = .next (match s.merge.transmitter with
        | .busy .returnFrame _ =>
          { counted.count .returnDrops with merge := { s.merge with buffer := s.merge.buffer.tail, transmitter := .down } }
        | .busy .response _ =>
          { counted with merge := { s.merge with transmitter := .down },
                         agent := { counted.agent with outbox := s.agent.outbox.tail } }
        | _ => { counted with merge := { s.merge with transmitter := .down } }))

/-- RESTART_AT_LINE_IN_RECEIVER, taken once while Restart Traffic is in progress (R106, R146): a forward frame in Keep is drained, its
chain returned and its flow's Flushed counted; a truncated one is counted and reported as at its end, an over-length one in LengthErrors;
each is marked so that its end counts nothing more. Any other frame is left, a Management frame in Keep too (log 27), and so is a frame
already marked (log 17). -/
def Obligations.RestartDiscardsTheForwardFrameInReception : Prop :=
  ∀ (s : State) (transaction : Word16) (pacingTaken egressTaken : Bool),
    s.agent.execution = .restarting transaction false pacingTaken egressTaken →
    let taken : State := { s with agent := { s.agent with execution := .restarting transaction true pacingTaken egressTaken } }
    let marked : State := { taken with lineIn := { s.lineIn with restarted := true } }
    (∀ label f cls place, s.classifier = some { label := label, kind := .forward f cls, inboxPlace := place } →
      s.lineIn.restarted = false →
      exec .restartAtLineInReceiver s = .next
        (if s.lineIn.truncated then
          ((marked.countFlow f .storeDiscards).count .storeExhausted).post (.storeExhausted f)
        else if s.lineIn.overLength then marked.count .lengthErrors
        else { marked with
          lineIn := { s.lineIn with state := .drain, record := none, restarted := true },
          store := { s.store with free := s.lineIn.chain.reverse ++ s.store.free } }.countFlow f .flushed)) ∧
    ((∀ label f cls place, s.classifier ≠ some { label := label, kind := .forward f cls, inboxPlace := place }) ∨
        s.lineIn.restarted = true →
      exec .restartAtLineInReceiver s = .next taken)

/-! ## Line-out receive -/

/-- HOLD_SYMBOL and RECEIVED_ABORT_OR_STREAM_RESET (R30, R31, R36, R37, R180). A Hold whose argument is not a byte, or whose bits 7 to 4
are not the complement of bits 3 to 0, is discarded. Another carries a mask: the one in force is no change; a new one replaces it wholly,
stops the timer of every level it does not hold, starts from the Stall Limit the timer of a level it newly holds that has a partial frame,
leaves every other timer, and is a decision event. While line-out is Down no Hold is received (log 16). An Abort or Stream Reset received
is discarded whatever follows it. -/
def Obligations.HoldSymbolReplacesTheMask : Prop :=
  ∀ s : State,
    (∀ symbol arg, exec (.receivedAbortOrStreamReset symbol arg) s = .next s) ∧
    exec (.holdSymbol .notAByte) s = .next s ∧
    (∀ b : Byte, b.extractLsb' 4 4 ≠ ~~~ (b.extractLsb' 0 4) → exec (.holdSymbol (.byte b)) s = .next s) ∧
    (∀ (mask : BitVec 4) (b : Byte), b = ~~~ mask ++ mask →
      (s.lineOut.state = .down ∨ s.lineOut.holdMask = mask → exec (.holdSymbol (.byte b)) s = .next s) ∧
      (s.lineOut.state ≠ .down → s.lineOut.holdMask ≠ mask → ∃ timers : Vector StallTimer 4,
        exec (.holdSymbol (.byte b)) s = .next (State.decisionEvent { s with
          lineOut := { s.lineOut with holdMask := mask }, egress := { s.egress with timers := timers } }) ∧
        ∀ l : Level,
          timers[l] = if held mask l = false then .stopped
            else if held s.lineOut.holdMask l = false ∧ s.egress.hasPartial l = true ∧ s.settings.stallLimit ≠ 0 then
              .running s.settings.stallLimit
            else s.egress.timers[l]))

/-- RETURN_START_DELIMITER (R152, R153): a frame being stored is first given up and counted in ReturnDrops; then a free place is taken at
the tail, incomplete, or with both taken the frame is refused, counted and drained. While line-out is Down there is no report (log 2). -/
def Obligations.ReturnStartTakesAPlaceOrIsRefused : Prop :=
  ∀ s : State,
    (s.lineOut.state = .down → exec .returnStartDelimiter s = .next s) ∧
    (s.lineOut.state ≠ .down → ∃ u : State,
      u = (if s.lineOut.state = .storing then
          { s.count .returnDrops with merge := { s.merge with buffer := s.merge.buffer.filter (fun e => e.complete) } }
        else s) ∧
      exec .returnStartDelimiter s = .next
        (if u.merge.buffer.length < 2 then
          { u with lineOut := { s.lineOut with state := .storing },
                   merge := { u.merge with buffer := u.merge.buffer ++ [{ complete := false, bytes := [] }] } }
        else { u.count .returnDrops with lineOut := { s.lineOut with state := .draining } }))

/-- RETURN_BYTE (R152, R153): in Storing a byte is written behind the others of the place being filled, but byte number 1028, counting
from 0, gives the frame up, counted in ReturnDrops, and drains it; in every other state a byte is discarded (while line-out is Down: log
2). -/
def Obligations.ReturnByteIsStored : Prop :=
  ∀ (s : State) (b : Byte),
    (s.lineOut.state ≠ .storing → exec (.returnByte b) s = .next s) ∧
    (∀ kept bytes, s.lineOut.state = .storing → s.merge.buffer = kept ++ [{ complete := false, bytes := bytes }] →
      (∀ e ∈ kept, e.complete = true) →
      exec (.returnByte b) s = .next
        (if bytes.length < 1028 then
          { s with merge := { s.merge with buffer := kept ++ [{ complete := false, bytes := bytes ++ [b] }] } }
        else
          { s.count .returnDrops with merge := { s.merge with buffer := kept }, lineOut := { s.lineOut with state := .draining } }))

/-- RETURN_END_DELIMITER and RETURN_ERROR_SYMBOL (R152, R153): a stored frame of 12 bytes or more is kept, its place complete; a shorter
one is given up and counted; a drained frame ends without count. An error symbol gives a frame being stored up, counted, and drains it;
elsewhere both are discarded (while line-out is Down: log 2). -/
def Obligations.ReturnFrameIsKeptOrGivenUp : Prop :=
  ∀ s : State,
    (s.lineOut.state = .down ∨ s.lineOut.state = .idle →
      exec .returnEndDelimiter s = .next s ∧ exec .returnErrorSymbol s = .next s) ∧
    (s.lineOut.state = .draining →
      exec .returnEndDelimiter s = .next { s with lineOut := { s.lineOut with state := .idle } } ∧
      exec .returnErrorSymbol s = .next s) ∧
    (∀ kept bytes, s.lineOut.state = .storing → s.merge.buffer = kept ++ [{ complete := false, bytes := bytes }] →
      (∀ e ∈ kept, e.complete = true) →
      exec .returnEndDelimiter s = .next
        (if 12 ≤ bytes.length then
          { s with merge := { s.merge with buffer := kept ++ [{ complete := true, bytes := bytes }] },
                   lineOut := { s.lineOut with state := .idle } }
        else
          { s.count .returnDrops with merge := { s.merge with buffer := kept }, lineOut := { s.lineOut with state := .idle } }) ∧
      exec .returnErrorSymbol s = .next
        { s.count .returnDrops with merge := { s.merge with buffer := kept }, lineOut := { s.lineOut with state := .draining } })

/-- LINE_OUT_COMES_UP (R20, R29, R48, R155): of a line that is Down, the receiver is Idle, and the choice puts the pending Stream Reset in
flight and clears its mark; of a line that is Up it is not an event. LINE_OUT_GOES_DOWN (R26, R31, R45, R46, R155): the Hold Mask is
cleared and LineState naming line-out posted; a return frame being stored is given up; what is in flight ends without completion; the
current frame and the stack entries are abandoned, each counted in LineOutAbandons but a Drop-marked one, and their chains returned, the
current one first, then the stack from its top; the pending aborts are emptied, the timers stopped and the Stream Reset mark set; the
lanes stay. Of a line that is Down it is not an event (R29). That the stack's chains go back from its top is the model's choice (log 13). -/
def Obligations.LineOutComesUpAndGoesDown : Prop :=
  ∀ s : State,
    (s.lineOut.state ≠ .down → exec .lineOutComesUp s = .next s) ∧
    (s.lineOut.state = .down → s.egress.streamReset = true → s.egress.inFlight = none →
      exec .lineOutComesUp s = .next { s with
        lineOut := { s.lineOut with state := .idle },
        egress := { s.egress with streamReset := false, inFlight := some .streamReset } }) ∧
    (s.lineOut.state = .down → exec .lineOutGoesDown s = .next s) ∧
    (s.lineOut.state ≠ .down → ∃ t, exec .lineOutGoesDown s = .next t ∧
      t = { s with lineOut := t.lineOut, egress := t.egress, store := t.store, merge := t.merge, counters := t.counters,
                   reports := t.reports } ∧
      t.lineOut = { state := .down, holdMask := 0 } ∧
      t.reports = (s.post (.lineState .lineOut)).reports ∧
      t.merge = (if s.lineOut.state = .storing then
          { s.merge with buffer := s.merge.buffer.filter (fun e => e.complete) } else s.merge) ∧
      t.egress.lanes = s.egress.lanes ∧ t.egress.current = none ∧ t.egress.inFlight = none ∧ t.egress.dropMark = false ∧
      t.egress.stack = [] ∧ t.egress.pendingAborts = 0 ∧ t.egress.streamReset = true ∧
      (∀ l : Level, t.egress.timers[l] = .stopped) ∧
      t.store = { s.store with
        free := ((s.egress.current.toList ++ s.egress.stack).flatMap (fun c : SentFrame => c.chain)).reverse ++ s.store.free } ∧
      t.counters = (if s.lineOut.state = .storing then s.counters.add .returnDrops 1 else s.counters).add .lineOutAbandons
        (s.egress.stack.length + if s.egress.current.isSome && !s.egress.dropMark then 1 else 0))

/-! ## Segments and symbols on line-out -/

/-- SEGMENT_COMPLETION (R8, R9, R26): the segment counts in SegmentsSent; a frame with segments left stays current with Segments sent one
higher; a frame whose final segment completes counts in its flow's Sent; a Drop-marked one counts no Sent; both of these leave the slot
empty and return their whole chain. Then the choice is made. With no segment in flight there is no such event (log 2). -/
def Obligations.SegmentCompletionAdvancesSendsOrDrops : Prop :=
  ∀ s : State,
    (∀ g c, s.egress.inFlight = some (.segment g) → s.egress.current = some c →
      let emptied : State := { s with
        egress := { s.egress with current := none, inFlight := none, dropMark := false },
        store := { s.store with free := c.chain.reverse ++ s.store.free } }
      (s.egress.dropMark = false → g.position = .first ∨ g.position = .middle →
        exec .segmentCompletion s = .next (State.decisionEvent
          { s.count .segmentsSent with
            egress := { s.egress with current := some { c with segmentsSent := c.segmentsSent + 1 }, inFlight := none } })) ∧
      (s.egress.dropMark = false → g.position = .whole ∨ g.position = .last →
        exec .segmentCompletion s = .next ((emptied.count .segmentsSent).countFlow c.flow .sent).decisionEvent) ∧
      (s.egress.dropMark = true → exec .segmentCompletion s = .next (emptied.count .segmentsSent).decisionEvent)) ∧
    ((∀ g, s.egress.inFlight ≠ some (.segment g)) → exec .segmentCompletion s = .next s)

/-- CONTROL_SYMBOL_COMPLETION (R10, R42, R43): nothing is in flight any more, a current frame held in the slot stays as it was, an Abort
counts in AbortsSent and a Stream Reset in nothing; then the choice is made. With no symbol in flight there is no such event (log 2). -/
def Obligations.SymbolCompletionLeavesTheCurrentFrame : Prop :=
  ∀ s : State,
    (∀ stream, s.egress.inFlight = some (.abort stream) →
      exec .controlSymbolCompletion s = .next (State.decisionEvent
        { s.count .abortsSent with egress := { s.egress with inFlight := none } })) ∧
    (s.egress.inFlight = some .streamReset →
      exec .controlSymbolCompletion s = .next (State.decisionEvent { s with egress := { s.egress with inFlight := none } })) ∧
    (s.egress.inFlight = none ∨ (∃ g, s.egress.inFlight = some (.segment g)) → exec .controlSymbolCompletion s = .next s)

/-- The choice at a decision event, first part (R11, R12, R22): with something in flight, or line-out Down, nothing changes; a pending
Stream Reset goes in flight and its mark is cleared; else the Abort of the numerically lowest pending stream goes in flight, held or not,
and that stream alone leaves the set. Nothing else changes. -/
def Obligations.ChoiceSendsSymbolsFirst : Prop :=
  ∀ s : State,
    (s.egress.inFlight ≠ none ∨ s.lineOut.state = .down → s.decisionEvent = s) ∧
    (s.egress.inFlight = none → s.lineOut.state ≠ .down →
      (s.egress.streamReset = true →
        s.decisionEvent = { s with egress := { s.egress with streamReset := false, inFlight := some .streamReset } }) ∧
      (s.egress.streamReset = false → ∀ l : Level, held s.egress.pendingAborts l = true →
        (∀ k : Level, k < l → held s.egress.pendingAborts k = false) →
        ∃ left, s.decisionEvent = { s with egress := { s.egress with pendingAborts := left, inFlight := some (.abort l) } } ∧
          ∀ k : Level, held left k = (held s.egress.pendingAborts k && k != l)))

/-- The choice with a current frame C and no symbol to send (R13, R14): a held C is suspended by force, counted, and the choice goes on
with no current frame; an unheld Preemptible C is pushed, counted in Preemptions, for the Preempting head of the most urgent unheld lane
that has one above C's level, which starts; otherwise C's next segment goes in flight, its payload read at the choice (log 21). -/
def Obligations.ChoiceSuspendsPreemptsOrContinues : Prop :=
  ∀ (s : State) (c : SentFrame),
    s.egress.inFlight = none → s.lineOut.state ≠ .down → s.egress.streamReset = false → s.egress.pendingAborts = 0 →
    s.egress.current = some c →
    let newcomer : Level → Prop := fun l =>
      l < c.level ∧ held s.lineOut.holdMask l = false ∧ ∃ f rest, s.egress.lanes[l] = f :: rest ∧ f.preempting = true
    (held s.lineOut.holdMask c.level = true →
      s.decisionEvent = State.decisionEvent
        { s.count .forcedSuspensions with egress := { s.egress with current := none, stack := c :: s.egress.stack } }) ∧
    (held s.lineOut.holdMask c.level = false →
      (∀ l f rest, c.preemptible = true → newcomer l → (∀ k : Level, k < l → ¬ newcomer k) → s.egress.lanes[l] = f :: rest →
        s.decisionEvent = { s.count .preemptions with egress := { s.egress with
          lanes := s.egress.lanes.set l rest, stack := c :: s.egress.stack, dropMark := false,
          current := some { toReleasedFrame := f, segmentsSent := 0 },
          inFlight := some (.segment (formSegment s.store f 0)) } }) ∧
      (c.preemptible = false ∨ (∀ l, ¬ newcomer l) →
        s.decisionEvent = { s with egress := { s.egress with
          inFlight := some (.segment (formSegment s.store c.toReleasedFrame c.segmentsSent)) } }))

/-- The choice with no current frame and no symbol to send (R6, R15, R16): the bound is the level of the stack's top, or 4; the head of
the most urgent unheld lane below the bound starts, whatever its flags; else an unheld top of the stack is resumed where it was; else
nothing changes. The payload of a segment is read at the choice (log 21). -/
def Obligations.ChoiceStartsOrResumes : Prop :=
  ∀ s : State,
    s.egress.inFlight = none → s.lineOut.state ≠ .down → s.egress.streamReset = false → s.egress.pendingAborts = 0 →
    s.egress.current = none →
    let startable : Level → Prop := fun l =>
      (∀ t rest, s.egress.stack = t :: rest → l < t.level) ∧ held s.lineOut.holdMask l = false ∧ s.egress.lanes[l] ≠ []
    (∀ l f rest, startable l → (∀ k : Level, k < l → ¬ startable k) → s.egress.lanes[l] = f :: rest →
      s.decisionEvent = { s with egress := { s.egress with
        lanes := s.egress.lanes.set l rest, dropMark := false,
        current := some { toReleasedFrame := f, segmentsSent := 0 },
        inFlight := some (.segment (formSegment s.store f 0)) } }) ∧
    ((∀ l, ¬ startable l) →
      (∀ t rest, s.egress.stack = t :: rest →
        s.decisionEvent = if held s.lineOut.holdMask t.level then s
          else { s with egress := { s.egress with
            stack := rest, current := some t,
            inFlight := some (.segment (formSegment s.store t.toReleasedFrame t.segmentsSent)) } }) ∧
      (s.egress.stack = [] → s.decisionEvent = s))

/-- Segments (R7, R179): segment k of a frame of n blocks is on the stream of its level, in the position the table of R7 gives, with byte
j of block k of the chain as byte j of its payload; all but the last carry 64 bytes, and the payloads of all of them, in order, are the
frame's bytes, each once. On the line a segment is its two header bytes (stream in bits 7 to 6 and position in bits 5 to 4 of the first,
payload length minus 1 in the second, the other bits 0), the payload and the CRC-16 over both: generator 0x1021, preset 0xFFFF, most
significant bit first, not inverted, sent most significant byte first. An Abort's argument byte is 0b101101 and the stream, a Stream
Reset's is 0x5A (10 sections 10.3 and 10.4). -/
def Obligations.SegmentsCarryTheWholeFrame : Prop :=
  (∀ (st : FrameStore) (f : ReleasedFrame), 0 < f.length → f.chain.length = blocksOf f.length →
    let n := blocksOf f.length
    (List.range n).flatMap (fun k => (formSegment st f k).payload) = (List.range f.length).map (st.frameByte f.chain) ∧
    ∀ (k : Nat) (hk : k < f.chain.length),
      (formSegment st f k).stream = f.level ∧
      (formSegment st f k).position = (if n = 1 then .whole else if k = 0 then .first else if k = n - 1 then .last else .middle) ∧
      (formSegment st f k).payload.length = (if k = n - 1 then f.length - 64 * (n - 1) else 64) ∧
      1 ≤ (formSegment st f k).payload.length ∧ (formSegment st f k).payload.length ≤ 64 ∧
      (∀ j, j < (formSegment st f k).payload.length →
        (formSegment st f k).payload[j]? = some (st.byteAt (blockAddress f.chain[k] j))) ∧
      ∃ header : List Byte,
        header = [BitVec.ofNat 8 (64 * f.level.val +
            16 * (if n = 1 then 0 else if k = 0 then 1 else if k = n - 1 then 3 else 2)),
          BitVec.ofNat 8 ((formSegment st f k).payload.length - 1)] ∧
        (InFlight.segment (formSegment st f k)).bytes =
          header ++ (formSegment st f k).payload ++ be16 (segmentCheck (header ++ (formSegment st f k).payload))) ∧
  segmentCheck [] = 0xFFFF#16 ∧
  (∀ (bytes : List Byte) (b : Byte), segmentCheck (bytes ++ [b]) =
    Nat.iterate (fun c : Word16 => if c.getLsbD 15 then (c <<< 1) ^^^ 0x1021#16 else c <<< 1) 8
      (segmentCheck bytes ^^^ (b ++ 0#8))) ∧
  (∀ w : Word16, be16 w = [BitVec.ofNat 8 (w.toNat / 256), BitVec.ofNat 8 w.toNat]) ∧
  (∀ stream : Level, (InFlight.abort stream).bytes = [BitVec.ofNat 8 (0xB4 + stream.val)]) ∧
  InFlight.streamReset.bytes = [0x5A]

/-- STALL_TIMER_EXPIRY of level L (R18, R39, R40): the partial frame of level L leaves the stack from its place and returns its chain; or
in the slot it is Drop-marked while its segment is in flight, and keeps its chain; or it is discarded at once while a symbol is. Stream L
becomes pending, StallAborts is counted, StallAbort posted and the timer stopped; with nothing in flight it is a decision event. A timer
that no tick has brought to its end does not expire (log 8). The report's Latest Tick is the counter as that tick has left it (log 26). -/
def Obligations.StallExpiryGivesThePartialFrameUp : Prop :=
  ∀ (s : State) (l : Level),
    (s.egress.timers[l] ≠ .ended → exec (.stallTimerExpiry l) s = .next s) ∧
    (s.egress.timers[l] = .ended →
      let given : EgressScheduler := { s.egress with
        timers := s.egress.timers.set l .stopped, pendingAborts := setLevel s.egress.pendingAborts l }
      let counted : SentFrame → State := fun c => (s.count .stallAborts).post (.stallAbort l c.flow)
      (∀ above c below, s.egress.stack = above ++ c :: below → c.level = l → (∀ x ∈ above ++ below, x.level ≠ l) →
        exec (.stallTimerExpiry l) s = .next (State.decisionEvent { counted c with
          egress := { given with stack := above ++ below },
          store := { s.store with free := c.chain.reverse ++ s.store.free } })) ∧
      (∀ c, (∀ x ∈ s.egress.stack, x.level ≠ l) → s.egress.current = some c → c.level = l → s.egress.dropMark = false →
        (∀ g, s.egress.inFlight = some (.segment g) → g.position = .first ∨ g.position = .middle →
          exec (.stallTimerExpiry l) s = .next { counted c with egress := { given with dropMark := true } }) ∧
        (s.egress.inFlight = some .streamReset ∨ (∃ k, s.egress.inFlight = some (.abort k)) →
          exec (.stallTimerExpiry l) s = .next { counted c with
            egress := { given with current := none },
            store := { s.store with free := c.chain.reverse ++ s.store.free } })))

/-- RESTART_AT_EGRESS_SCHEDULER, taken once while Restart Traffic is in progress (R24, R25, R49, R146): the lanes and the stack are
emptied, each frame counted in its flow's Flushed and its chain returned, each stack entry's stream pending, the timers stopped, the
Stream Reset mark left. The current frame is left when Drop-marked or when its final segment is in flight; else it is Flushed and its
stream pending: Drop-marked while its segment is in flight, discarded at once while a symbol is. With nothing in flight, new pending
streams are a decision event. The order of the chains of several frames is the model's (log 13). -/
def Obligations.RestartDiscardsLanesAndPartialFrames : Prop :=
  ∀ (s : State) (transaction : Word16) (lineInTaken pacingTaken : Bool),
    s.agent.execution = .restarting transaction lineInTaken pacingTaken false →
    let lanes : List ReleasedFrame := allLevels.flatMap (fun l : Level => s.egress.lanes[l])
    let cleared : State := { s with
      agent := { s.agent with execution := .restarting transaction lineInTaken pacingTaken true },
      egress := { s.egress with
        lanes := Vector.replicate 4 [], stack := [], timers := Vector.replicate 4 .stopped,
        pendingAborts := (s.egress.stack.map (fun c : SentFrame => c.level)).foldl setLevel s.egress.pendingAborts },
      store := { s.store with
        free := (lanes.flatMap (fun f : ReleasedFrame => f.chain) ++ s.egress.stack.flatMap (fun c : SentFrame => c.chain)).reverse
          ++ s.store.free },
      counters := s.counters.addFlushed
        (lanes.map (fun f : ReleasedFrame => f.flow) ++ s.egress.stack.map (fun c : SentFrame => c.flow)) }
    (s.egress.inFlight ≠ none → s.egress.current = none ∨ s.egress.dropMark = true ∨ s.egress.finalInFlight = true →
      exec .restartAtEgressScheduler s = .next cleared) ∧
    (∀ c, s.egress.current = some c → s.egress.dropMark = false →
      let pending : EgressScheduler := { cleared.egress with pendingAborts := setLevel cleared.egress.pendingAborts c.level }
      (∀ g, s.egress.inFlight = some (.segment g) → g.position = .first ∨ g.position = .middle →
        exec .restartAtEgressScheduler s = .next
          { cleared.countFlow c.flow .flushed with egress := { pending with dropMark := true } }) ∧
      (s.egress.inFlight = some .streamReset ∨ (∃ k, s.egress.inFlight = some (.abort k)) →
        exec .restartAtEgressScheduler s = .next
          { cleared.countFlow c.flow .flushed with
            egress := { pending with current := none },
            store := { cleared.store with free := c.chain.reverse ++ cleared.store.free } })) ∧
    (s.egress.inFlight = none → s.egress.current = none →
      exec .restartAtEgressScheduler s = .next
        (if cleared.egress.pendingAborts = s.egress.pendingAborts then cleared else cleared.decisionEvent))

/-! ## Pacing -/

/-- An evaluation (R67, R68, R69): it works through the queue from its head, in order; of the heads it passes, the stale ones (older than
a Max Residence above 0) are discarded and the others released with Level and flags copied from the descriptor; it stops at the end of the
queue, at a head the mode does not allow, or, in Interval mode, after one release; what is left stays in order. Every head it passes, a
stale one too, is one the mode allows by the counters at that moment: those the frames before it leave, which an evaluation of them alone
works through whole; a head the mode does not allow is not judged, however old. -/
def Obligations.EvaluationReleasesInQueueOrder : Prop :=
  ∀ (d : Descriptor) (tick : Word32) (draw : Nat) (flow : Flow) (ctx : Option PacingContext) (queue : List QueuedFrame),
    let r := d.evaluate tick draw flow ctx queue
    let isStale : QueuedFrame → Bool := fun f =>
      d.maxResidence != 0 && decide (d.maxResidence.toNat < (tick - f.arrivalTick).toNat)
    ∃ passed, queue = passed ++ r.queue ∧
      r.stale = passed.filter isStale ∧
      r.released = (passed.filter (fun f => !isStale f)).map (fun f : QueuedFrame =>
        { toQueuedFrame := f, level := d.urgency, preemptible := d.preemptible, preempting := d.preempting }) ∧
      (∀ f rest, r.queue = f :: rest →
        d.allows r.counters (blocksOf f.length) = false ∨ (r.released ≠ [] ∧ ∃ n, r.counters = .interval n)) ∧
      (r.released = [] → r.counters = d.countersOf ctx) ∧
      (∀ before f after, passed = before ++ f :: after →
        let atHead := d.evaluate tick draw flow ctx before
        atHead.queue = [] ∧ d.allows atHead.counters (blocksOf f.length) = true ∧
        (atHead.released = [] ∨ ∀ n, atHead.counters ≠ .interval n))

/-- What each mode lets an evaluation release, by the counters it works on (R60, R61, R62, R64, R66): an Open flow empties its queue; an
Interval flow releases at most one frame, only at Countdown 0, and sets Countdown to Interval, and at Countdown 0 it leaves a head only
after a release; a Credit flow pays its blocks, and leaves only a head of more blocks than the Credit then left; an open gate with a Burst
releases up to it, counts in Released, and leaves a head only with the Burst used, with none it empties the queue, a shut gate releases
nothing and judges no head; a Tiered flow keeps both quotas, counts in both, and leaves a head only with one of them used. The first
clauses say of every mode when it allows a head of so many blocks. -/
def Obligations.ModesLimitWhatAnEvaluationReleases : Prop :=
  ∀ (d : Descriptor) (tick : Word32) (draw : Nat) (flow : Flow) (ctx : Option PacingContext) (queue : List QueuedFrame),
    let r := d.evaluate tick draw flow ctx queue
    let n := r.released.length
    (∀ blocks : Nat,
      d.allows .openMode blocks = true ∧
      (∀ countdown, d.allows (.interval countdown) blocks = true ↔ countdown = 0) ∧
      (∀ credit, d.allows (.credit credit) blocks = true ↔ blocks ≤ credit) ∧
      (∀ phase position released, d.allows (.gate phase position released) blocks = true ↔
        phase = .opened ∧ (d.param3 = 0 ∨ released.toNat < d.param3.toNat)) ∧
      (∀ tickInWindow sentInWindow windowInEpoch sentInEpoch,
        d.allows (.tiered tickInWindow sentInWindow windowInEpoch sentInEpoch) blocks = true ↔
          sentInWindow < d.param2.toNat ∧ sentInEpoch < d.param4.toNat)) ∧
    (d.countersOf ctx = .openMode → r.queue = [] ∧ r.counters = .openMode) ∧
    (∀ countdown, d.countersOf ctx = .interval countdown →
      n ≤ 1 ∧ (countdown ≠ 0 → n = 0 ∧ r.queue = queue) ∧ (n = 1 → r.counters = .interval d.param1.toNat) ∧
      (countdown = 0 → r.queue ≠ [] → n = 1)) ∧
    (∀ credit, d.countersOf ctx = .credit credit →
      (r.released.map (fun f => blocksOf f.length)).sum ≤ credit ∧
      r.counters = .credit (credit - (r.released.map (fun f => blocksOf f.length)).sum) ∧
      (∀ f rest, r.queue = f :: rest →
        credit - (r.released.map (fun f => blocksOf f.length)).sum < blocksOf f.length)) ∧
    (∀ position released, d.countersOf ctx = .gate .opened position released →
      (d.param3 = 0 → r.queue = []) ∧
      (d.param3 ≠ 0 → d.param3.toNat ≤ 255 →
        (n = 0 ∨ released.toNat + n ≤ d.param3.toNat) ∧ r.counters = .gate .opened position (released + BitVec.ofNat 8 n) ∧
        (r.queue ≠ [] → d.param3.toNat ≤ released.toNat + n))) ∧
    (∀ position released, d.countersOf ctx = .gate .shut position released →
      n = 0 ∧ r.queue = queue ∧ r.counters = .gate .shut position released) ∧
    (∀ tickInWindow sentInWindow windowInEpoch sentInEpoch,
      d.countersOf ctx = .tiered tickInWindow sentInWindow windowInEpoch sentInEpoch →
      (n = 0 ∨ (sentInWindow + n ≤ d.param2.toNat ∧ sentInEpoch + n ≤ d.param4.toNat)) ∧
      (r.queue ≠ [] → d.param2.toNat ≤ sentInWindow + n ∨ d.param4.toNat ≤ sentInEpoch + n) ∧
      r.counters = .tiered tickInWindow (sentInWindow + n) windowInEpoch (sentInEpoch + n))

/-- What ticks do to the counters of a context that is up to date (R59 to R63, R65): an Open context stays as it is; Countdown falls by one
a tick to 0; Credit rises by Refill a tick to the Ceiling, and one above it falls to it; a gate stays Open for Open Time ticks and Shut for
Shut Time ticks, and opens with Released 0; a window lasts Window ticks and ends with Sent-in-Window 0, and the window that completes the
epoch ends it with Sent-in-Epoch 0. A Position, a Tick-in-Window or a Window-in-Epoch that stands at or past its bound, as after a swap,
changes the phase or wraps at the next tick (R59); that this tick resets Sent-in-Epoch within a window too is the model's reading (log
18). -/
def Obligations.TicksAdvanceThePacingCounters : Prop :=
  ∀ d : Descriptor,
    (∀ n, Nat.iterate d.advance n .openMode = .openMode) ∧
    (∀ n countdown, Nat.iterate d.advance n (.interval countdown) = .interval (countdown - n)) ∧
    (∀ n credit, credit ≤ d.param2.toNat ∨ 0 < n →
      Nat.iterate d.advance n (.credit credit) = .credit (min (credit + n * d.param1.toNat) d.param2.toNat)) ∧
    (∀ position released,
      (∀ n, position + n < d.param1.toNat →
        Nat.iterate d.advance n (.gate .opened position released) = .gate .opened (position + n) released) ∧
      (d.param1.toNat ≤ position + 1 → d.advance (.gate .opened position released) = .gate .shut 0 released) ∧
      (∀ n, position + n < d.param2.toNat →
        Nat.iterate d.advance n (.gate .shut position released) = .gate .shut (position + n) released) ∧
      (d.param2.toNat ≤ position + 1 → d.advance (.gate .shut position released) = .gate .opened 0 0)) ∧
    (∀ released,
      (0 < d.param1.toNat → Nat.iterate d.advance d.param1.toNat (.gate .opened 0 released) = .gate .shut 0 released) ∧
      (0 < d.param2.toNat → Nat.iterate d.advance d.param2.toNat (.gate .shut 0 released) = .gate .opened 0 0)) ∧
    (∀ tickInWindow sentInWindow windowInEpoch sentInEpoch, windowInEpoch < d.param3.toNat →
      (∀ n, tickInWindow + n < d.param1.toNat →
        Nat.iterate d.advance n (.tiered tickInWindow sentInWindow windowInEpoch sentInEpoch) =
          .tiered (tickInWindow + n) sentInWindow windowInEpoch sentInEpoch) ∧
      (d.param1.toNat ≤ tickInWindow + 1 →
        d.advance (.tiered tickInWindow sentInWindow windowInEpoch sentInEpoch) =
          if windowInEpoch + 1 = d.param3.toNat then .tiered 0 0 0 0 else .tiered 0 0 (windowInEpoch + 1) sentInEpoch)) ∧
    (∀ sentInWindow windowInEpoch sentInEpoch, windowInEpoch < d.param3.toNat → 0 < d.param1.toNat →
      Nat.iterate d.advance d.param1.toNat (.tiered 0 sentInWindow windowInEpoch sentInEpoch) =
        if windowInEpoch + 1 = d.param3.toNat then .tiered 0 0 0 0 else .tiered 0 0 (windowInEpoch + 1) sentInEpoch) ∧
    (∀ tickInWindow sentInWindow windowInEpoch sentInEpoch, d.param3.toNat ≤ windowInEpoch →
      d.advance (.tiered tickInWindow sentInWindow windowInEpoch sentInEpoch) =
        if d.param1.toNat ≤ tickInWindow + 1 then .tiered 0 0 0 0 else .tiered (tickInWindow + 1) sentInWindow 0 0)

/-- A context at its use (R58, R59): none, or built for another Generation or Pacing Mode, it starts from the initial counters of the
descriptor's mode, at a tick without being advanced by it; up to date, it goes on from its counters, a Credit first lowered to the
Ceiling; of an Absent flow a tick leaves it. -/
def Obligations.ContextIsBuiltForGenerationAndMode : Prop :=
  ∀ (d : Descriptor) (ctx : Option PacingContext),
    (d.present = false → d.tickContext ctx = ctx) ∧
    ((∀ c, ctx = some c → c.generation ≠ d.generation ∨ c.counters.mode ≠ d.mode) →
      let initial : PacingCounters := match d.mode with
        | .openMode => .openMode
        | .interval => .interval 0
        | .credit => .credit d.param2.toNat
        | .gate => .gate .opened 0 0
        | .tiered => .tiered 0 0 0 0
      d.countersOf ctx = initial ∧
      (d.present = true → d.tickContext ctx = some { generation := d.generation, counters := initial })) ∧
    (∀ c, ctx = some c → c.generation = d.generation → c.counters.mode = d.mode →
      ∃ k, k = (match c.counters with
          | .credit n => if d.param2.toNat < n then .credit d.param2.toNat else .credit n
          | other => other) ∧
        d.countersOf ctx = k ∧
        (d.present = true → d.tickContext ctx = some { generation := d.generation, counters := d.advance k }))

/-- TICK_EXPIRY (R38, R50, R51, R70): the Tick Counter rises by 1 and wraps, and the next period has the Tick Period in force; the context
and the queue of an Absent flow stay; every Present flow's context is updated and the flow evaluated at the new tick; what is released
enters the lanes of its levels behind what stands there, flows in ascending index, as one insertion, which is a decision event (R3, R69)
that sees the lanes after it, and with something in flight or line-out Down changes no more than the lanes; a sweep that releases nothing
makes no insertion; each running stall timer loses a tick or comes to its end, its expiry being a command of its own (log 8), taken after
the insertion (log 26); the stale frames are counted and returned; nothing else changes but the draws (log 4). -/
def Obligations.TickExpirySweepsEveryPresentFlow : Prop :=
  ∀ s : State, ∃ t, exec .tickExpiry s = .next t ∧
    t = { s with draws := t.draws, store := t.store, pacing := t.pacing, egress := t.egress, counters := t.counters } ∧
    t.pacing.tickCounter = s.pacing.tickCounter + 1 ∧ t.pacing.period = s.settings.tickPeriod ∧
    t.pacing.requests = s.pacing.requests ∧ t.store.mem = s.store.mem ∧
    (∀ f : Flow, (s.plan.activeBank.flows[f]).present = false →
      t.pacing.queues[f] = s.pacing.queues[f] ∧ t.pacing.contexts[f] = s.pacing.contexts[f]) ∧
    (∀ l : Level, t.egress.timers[l] = match s.egress.timers[l] with
      | .running left => if left.toNat ≤ 1 then .ended else .running (left - 1)
      | other => other) ∧
    ∃ results : Flow → Evaluation,
      (∀ f : Flow, (s.plan.activeBank.flows[f]).present = true →
        let d := s.plan.activeBank.flows[f]
        results f = d.evaluate (s.pacing.tickCounter + 1) s.draws f (d.tickContext s.pacing.contexts[f]) s.pacing.queues[f] ∧
        t.pacing.queues[f] = (results f).queue ∧
        t.pacing.contexts[f] = some { generation := d.generation, counters := (results f).counters }) ∧
      let swept := allFlows.filter (fun f : Flow => (s.plan.activeBank.flows[f]).present)
      let released := swept.flatMap (fun f => (results f).released)
      let stale := swept.flatMap (fun f => (results f).stale)
      t.store.free = (stale.flatMap (fun q : QueuedFrame => q.chain)).reverse ++ s.store.free ∧
      (s.egress.inFlight ≠ none ∨ s.lineOut.state = .down ∨ released = [] →
        (∀ l : Level, t.egress.lanes[l] = s.egress.lanes[l] ++ released.filter (fun r : ReleasedFrame => r.level == l)) ∧
        t.egress = { s.egress with lanes := t.egress.lanes, timers := t.egress.timers } ∧
        t.counters = stale.foldl (fun b (q : QueuedFrame) => b.addFlow q.flow .staleDiscards 1) s.counters) ∧
      (released ≠ [] → ∃ inserted chosen : State,
        inserted = { s with
          draws := t.draws, store := t.store, pacing := t.pacing,
          egress := { s.egress with lanes := inserted.egress.lanes },
          counters := stale.foldl (fun b (q : QueuedFrame) => b.addFlow q.flow .staleDiscards 1) s.counters } ∧
        (∀ l : Level,
          inserted.egress.lanes[l] = s.egress.lanes[l] ++ released.filter (fun r : ReleasedFrame => r.level == l)) ∧
        chosen = inserted.decisionEvent ∧
        t = { chosen with egress := { chosen.egress with timers := t.egress.timers } })

/-- ADMISSION_REQUEST (R53 to R57): the oldest request is taken. For an Absent flow the frame is discarded and counted in Flushed, without
evaluation. For a Present one its Arrival Tick is the Tick Counter, and it is appended below the Depth Limit and counted in Admitted; at
the limit it is dropped under DropNew, or the head is under DropOldest, counted in FullDiscards, the chain of the dropped frame returned;
then the flow is evaluated once. With no request there is no such event (logs 2 and 7). -/
def Obligations.AdmissionAppendsOrOverflows : Prop :=
  ∀ s : State,
    (s.pacing.requests = [] → exec .admissionRequest s = .next s) ∧
    (∀ f rest, s.pacing.requests = f :: rest →
      let d := s.plan.activeBank.flows[f.flow]
      let queue := s.pacing.queues[f.flow]
      let arrived : QueuedFrame := { toFrameRecord := f, arrivalTick := s.pacing.tickCounter }
      let taken : List QueuedFrame → State := fun q =>
        { s with pacing := { s.pacing with requests := rest, queues := s.pacing.queues.set f.flow q } }
      let returned : List BlockNo → FrameStore := fun chain => { s.store with free := chain.reverse ++ s.store.free }
      (d.present = false →
        exec .admissionRequest s = .next
          { (taken queue).countFlow f.flow .flushed with store := returned f.chain }) ∧
      (d.present = true → queue.length < d.depthLimit.toNat →
        exec .admissionRequest s = .next (((taken (queue ++ [arrived])).countFlow f.flow .admitted).evaluateFlow f.flow)) ∧
      (d.present = true → d.depthLimit.toNat ≤ queue.length → d.overflow = .dropNew →
        exec .admissionRequest s = .next
          (State.evaluateFlow { (taken queue).countFlow f.flow .fullDiscards with store := returned f.chain } f.flow)) ∧
      (∀ head others, d.present = true → d.depthLimit.toNat ≤ queue.length → d.overflow = .dropOldest → queue = head :: others →
        exec .admissionRequest s = .next (State.evaluateFlow
          { ((taken (others ++ [arrived])).countFlow f.flow .fullDiscards).countFlow f.flow .admitted with
            store := returned head.chain } f.flow)))

/-- The one evaluation after an admission (R57, R67, R69): the flow's queue and context are the evaluation's, its stale frames are counted
in StaleDiscards and their chains returned, and what it releases enters the lane of the flow's Urgency together, a decision event when
there is any; nothing else changes but the draws (log 4). -/
def Obligations.AdmissionIsFollowedByOneEvaluation : Prop :=
  ∀ (s : State) (flow : Flow) (r : Evaluation),
    r = (s.plan.activeBank.flows[flow]).evaluate s.pacing.tickCounter s.draws flow s.pacing.contexts[flow] s.pacing.queues[flow] →
    let d := s.plan.activeBank.flows[flow]
    let evaluated : State := { s with
      draws := s.draws + 1,
      pacing := { s.pacing with
        queues := s.pacing.queues.set flow r.queue,
        contexts := s.pacing.contexts.set flow (some { generation := d.generation, counters := r.counters }) },
      store := { s.store with free := (r.stale.flatMap (fun q : QueuedFrame => q.chain)).reverse ++ s.store.free },
      counters := r.stale.foldl (fun b (q : QueuedFrame) => b.addFlow q.flow .staleDiscards 1) s.counters }
    (r.released = [] → s.evaluateFlow flow = evaluated) ∧
    (r.released ≠ [] → s.evaluateFlow flow = State.decisionEvent { evaluated with
      egress := { s.egress with lanes := s.egress.lanes.set d.urgency (s.egress.lanes[d.urgency] ++ r.released) } })

/-- GATE_PHASE_CHANGE, WINDOW_BOUNDARY and EPOCH_BOUNDARY (R59, R63, R65), of a Present flow with a context up to date that has reached or
passed its bound: the gate shuts with Released kept, or opens with Released 0; the window ends with Sent-in-Window 0 and one window more;
the epoch ends with Sent-in-Epoch 0. Nothing else of the part changes. Inside a tick the sweep makes these changes; that they can also
stand alone, and then act on nothing else, is the model's reading (log 19). -/
def Obligations.PhasesWindowsAndEpochsEnd : Prop :=
  ∀ (s : State) (f : Flow) (g : Byte),
    let d := s.plan.activeBank.flows[f]
    let after : PacingCounters → State := fun k =>
      { s with pacing := { s.pacing with contexts := s.pacing.contexts.set f (some { generation := g, counters := k }) } }
    d.present = true → d.generation = g →
    (d.mode = .gate → ∀ position released,
      (s.pacing.contexts[f] = some { generation := g, counters := .gate .opened position released } →
        exec (.gatePhaseChange f) s = .next
          (if d.param1.toNat ≤ position then after (.gate .shut 0 released) else s)) ∧
      (s.pacing.contexts[f] = some { generation := g, counters := .gate .shut position released } →
        exec (.gatePhaseChange f) s = .next (if d.param2.toNat ≤ position then after (.gate .opened 0 0) else s))) ∧
    (d.mode = .tiered → ∀ tick sent window sentInEpoch,
      s.pacing.contexts[f] = some { generation := g, counters := .tiered tick sent window sentInEpoch } →
      exec (.windowBoundary f) s = .next
        (if d.param1.toNat ≤ tick then after (.tiered 0 0 (window + 1) sentInEpoch) else s) ∧
      exec (.epochBoundary f) s = .next
        (if d.param3.toNat ≤ window then after (.tiered tick sent 0 0) else s))

/-- RESTART_AT_PACING_UNIT, taken once while Restart Traffic is in progress (R74, R146): every queue is emptied, every frame counted in
its flow's Flushed and its chain returned; every context is none; the Tick Counter, the period and the requests still to be taken stay.
Otherwise there is no such event (log 2). The order of the chains is the model's (log 13). -/
def Obligations.RestartEmptiesQueuesAndContexts : Prop :=
  ∀ s : State,
    ((∀ transaction lineInTaken egressTaken, s.agent.execution ≠ .restarting transaction lineInTaken false egressTaken) →
      exec .restartAtPacingUnit s = .next s) ∧
    (∀ transaction lineInTaken egressTaken, s.agent.execution = .restarting transaction lineInTaken false egressTaken →
      let gone : List QueuedFrame := allFlows.flatMap (fun f : Flow => s.pacing.queues[f])
      exec .restartAtPacingUnit s = .next { s with
        agent := { s.agent with execution := .restarting transaction lineInTaken true egressTaken },
        pacing := { s.pacing with queues := Vector.replicate 256 [], contexts := Vector.replicate 256 none },
        store := { s.store with free := (gone.flatMap (fun q : QueuedFrame => q.chain)).reverse ++ s.store.free },
        counters := gone.foldl (fun b (q : QueuedFrame) => b.addFlow q.flow .flushed 1) s.counters })

/-! ## The Return Merge -/

/-- RETURN_MERGE_CHOICE (R149, R156, R157, R158, R159, R172): with line-in Up, the transmitter free and a side waiting, the one side that
waits is served, or of two the one not served last; the return side sends the head of the Return Buffer as stored; the agent side sends
the ready head of the Outbox, or else a report frame of the head record, with the Response Label in force, and that record leaves the
queue; responses and reports go out with their frame check; the last-served mark names the side. Otherwise there is no choice (log 2). The
bytes of a response are its label, Tag and Flags 0, Kind 0x02, the echoed Transaction Number and Command Code, the status code, Repeat and
the results; those of a report are its label, Tag and Flags 0, Kind 0x03, the report kind, Occurrences, Latest Tick, Detail Length and the
First Detail (10 section 10.2); the codes of a job's kind and phase in a JobDone detail are the model's reading (log 15).
That no report goes before a ready response is R149 and R158, followed against a word of R176 (log 28). -/
def Obligations.MergeServesTheSideNotServedLast : Prop :=
  ∀ s : State,
    let returnWaits : Prop := ∃ bytes rest, s.merge.buffer = { complete := true, bytes := bytes } :: rest
    let responseWaits : Prop := ∃ r rest, s.agent.outbox = .ready r :: rest
    let agentWaits : Prop := responseWaits ∨ s.reports ≠ []
    (s.lineIn.state = .down ∨ s.merge.transmitter ≠ .free ∨ (¬ returnWaits ∧ ¬ agentWaits) →
      exec .returnMergeChoice s = .next s) ∧
    (s.lineIn.state ≠ .down → s.merge.transmitter = .free →
      (∀ bytes rest, s.merge.buffer = { complete := true, bytes := bytes } :: rest →
        (agentWaits → s.merge.lastServed = .agentSide) →
        exec .returnMergeChoice s = .next { s with
          merge := { s.merge with lastServed := .returnSide, transmitter := .busy .returnFrame bytes } }) ∧
      ((returnWaits → s.merge.lastServed = .returnSide) →
        (∀ r rest, s.agent.outbox = .ready r :: rest →
          exec .returnMergeChoice s = .next { s with merge := { s.merge with
            lastServed := .agentSide, transmitter := .busy .response (r.bytes ++ be32 (frameCheck r.bytes)) } }) ∧
        (∀ r rest, ¬ responseWaits → s.reports = r :: rest →
          let bytes := r.bytes s.settings.responseLabel
          exec .returnMergeChoice s = .next { s with
            reports := rest,
            merge := { s.merge with
              lastServed := .agentSide, transmitter := .busy .report (bytes ++ be32 (frameCheck bytes)) } }))) ∧
    (∀ r : Response, ∃ status : Byte,
      r.bytes = be16 r.label ++ [0, 0, 0x02] ++ be16 r.transaction ++ [r.code, status, if r.repeated then 1 else 0] ++ r.results ∧
      status = match r.status with
        | .done => 0
        | .accepted => 1
        | .busy => 2
        | .activeBank => 3
        | .notReady => 4
        | .range => 5
        | .full => 6
        | .missing => 7
        | .conflict => 8
        | .malformed => 9
        | .noJob => 10) ∧
    (∀ (r : ReportRecord) (label : Word16), ∃ (kind : Byte) (detail : List Byte),
      r.bytes label = be16 label ++ [0, 0, 0x03, kind] ++ be16 (BitVec.ofNat 16 r.occurrences) ++ be32 r.latestTick ++
        [BitVec.ofNat 8 detail.length] ++ detail ∧
      match r.first with
      | .jobDone o => kind = 0 ∧ ∃ job bank phase : Byte, ∃ outcome : List Byte,
        detail = [job, bank] ++ be16 o.job.transaction ++ outcome ++ [phase] ++ be16 (BitVec.ofNat 16 o.job.progress) ∧
        job = (if o.job.kind = .copy then 1 else 2) ∧ bank = (if o.job.bank = .bankA then 0 else 1) ∧
        phase = (if o.job.phase = .map then 0 else 1) ∧
        outcome = match o.result with
          | .completed => [0, 0, 0, 0]
          | .failed (.danglingFlow x) => [1, 1] ++ be16 x
          | .failed (.reservedLabel x) => [1, 2] ++ be16 x
          | .failed (.defaultFlowAbsent f) => [1, 3, 0, BitVec.ofNat 8 f.val]
          | .aborted => [2, 0, 0, 0]
      | .stallAbort level flow => kind = 1 ∧ detail = [BitVec.ofNat 8 level.val, BitVec.ofNat 8 flow.val]
      | .storeExhausted flow => kind = 2 ∧ detail = [BitVec.ofNat 8 flow.val]
      | .inboxOverflow => kind = 3 ∧ detail = []
      | .checkError x => kind = 4 ∧ detail = be16 x
      | .unmappedLabel x => kind = 5 ∧ detail = be16 x
      | .lineState line => kind = 6 ∧ detail = [if line = .lineIn then 0 else 1]) ∧
    (∀ w : Word16, be16 w = [BitVec.ofNat 8 (w.toNat / 256), BitVec.ofNat 8 w.toNat]) ∧
    (∀ w : Word32, be32 w = [BitVec.ofNat 8 (w.toNat / 16777216), BitVec.ofNat 8 (w.toNat / 65536), BitVec.ofNat 8 (w.toNat / 256),
      BitVec.ofNat 8 w.toNat])

/-- LINE_IN_TRANSMISSION_COMPLETION (R135, R154, R159): the transmitter is free; a return frame frees its place at the head of the Return
Buffer and a response its place at the head of the Outbox; no counter changes. With nothing on the line there is no such event (log 2). -/
def Obligations.TransmissionCompletionFreesThePlace : Prop :=
  ∀ s : State,
    (∀ kind bytes, s.merge.transmitter = .busy kind bytes →
      exec .lineInTransmissionCompletion s = .next { s with
        merge := { s.merge with
          transmitter := .free, buffer := if kind = .returnFrame then s.merge.buffer.tail else s.merge.buffer },
        agent := { s.agent with outbox := if kind = .response then s.agent.outbox.tail else s.agent.outbox } }) ∧
    ((∀ kind bytes, s.merge.transmitter ≠ .busy kind bytes) → exec .lineInTransmissionCompletion s = .next s)

/-! ## The Management Agent -/

/-- What the agent begins, repeats, and Malformed (R134, R136, R138, R139, R140): a command of the catalogue is begun only when its entry
is the complete head of the Inbox, the state is Free and the Outbox has a place; an entry that repeats the last transaction is answered
from the record, with Repeat set and the Response Label in force, and not executed; otherwise an operand length the command does not
accept, a Kind that is not Command and a code outside the catalogue are answered Malformed, and nothing but the Inbox, the Outbox and the
record changes. That a row leaves the state as it is when no such entry may begin is the model's reading (log 2). -/
def Obligations.AgentAnswersRepeatsAndMalformedCommands : Prop :=
  ∀ (s : State) (e : InboxEntry),
    let repeated : LastTransaction → State := fun l =>
      { s with agent := { s.agent with
          inbox := s.agent.inbox.tail,
          outbox := s.agent.outbox ++ [.ready { l.response with repeated := true, label := s.settings.responseLabel }] } }
    (∀ c code lengths, (c, code, lengths) ∈ catalogue →
      ((∀ x, s.MayBegin x → ¬ (x.kind = 0x01#8 ∧ x.code = code)) → exec c s = .next s) ∧
      (s.MayBegin e → e.kind = 0x01#8 → e.code = code →
        (∀ l, s.agent.last = some l → l.transaction = e.transaction → l.code = e.code → exec c s = .next (repeated l)) ∧
        (s.Fresh e → e.operandLength ∉ lengths → exec c s = .next (s.answer e .malformed [])))) ∧
    ((∀ x, s.MayBegin x → x.kind = 0x01#8 ∧ 1 ≤ x.code.toNat ∧ x.code.toNat ≤ 0x14) → exec .malformedCommand s = .next s) ∧
    (s.MayBegin e → e.kind ≠ 0x01#8 ∨ e.code = 0 ∨ 0x14 < e.code.toNat →
      (∀ l, s.agent.last = some l → l.transaction = e.transaction → l.code = e.code →
        exec .malformedCommand s = .next (repeated l)) ∧
      (s.Fresh e → exec .malformedCommand s = .next (s.answer e .malformed [])))

/-- IDENTIFY, READ_SETTINGS and READ_STATUS (R142, R145, R151, R175, 10 section 10.2) answer Done and change nothing but the Inbox, the
Outbox and the record: the codes, the station and the thirteen capacities; the eight settings in table order; the snapshot, with its own
Inbox place freed and its own Outbox place taken, 53 bytes whenever the stack and the Report Queue keep their bounds. The three bytes of
an absent current frame are not stated by the spec: they are free values (log 10), and the draw is the model's (log 4). -/
def Obligations.ReadCommandsReportThePart : Prop :=
  ∀ (s : State) (e : InboxEntry),
    (s.Begins 0x01 [0] e → exec .identify s = .next (s.answer e .done
      (be16 0x3A1C ++ be16 0x2604 ++ [0x01, s.agent.station.zeroExtend 8]
        ++ be16 1024 ++ be16 64 ++ be16 1024 ++ be16 16 ++ be16 256 ++ be16 512 ++ be16 256 ++ be16 4 ++ be16 4 ++ be16 4 ++ be16 2
        ++ be16 2 ++ be16 7))) ∧
    (s.Begins 0x02 [0] e → exec .readSettings s = .next (s.answer e .done
      (be16 s.settings.managementLabel ++ be16 s.settings.responseLabel ++ be16 s.settings.tickPeriod ++ [s.settings.reserveFloor]
        ++ be16 s.settings.stallLimit ++ [if s.settings.unmappedPolicy = .defaultFlow then 1 else 0,
          byteOf s.settings.defaultFlow.val, s.settings.reportEnable.zeroExtend 8]))) ∧
    (s.Begins 0x04 [0] e → ∃ (x y z : Byte) (results : List Byte),
      exec .readStatus s = .next (State.answer { s with draws := s.draws + 1 } e .done results) ∧
      results =
        [s.plan.active.byte, boolByte s.plan.bankA.ready + 2 * boolByte s.plan.bankB.ready]
        ++ (match s.plan.job with
          | some j => [j.kind.byte, j.bank.byte, j.phase.byte] ++ wordOf j.progress
          | none => [0, 0, 0, 0, 0])
        ++ wordOf s.store.free.length
        ++ allLevels.flatMap (fun l : Level => wordOf s.egress.lanes[l].length)
        ++ (match s.egress.current with
          | some c => [1, levelByte c.level, flowByte c.flow, byteOf c.segmentsSent]
          | none => [0, x, y, z])
        ++ [byteOf s.egress.stack.length]
        ++ s.egress.stack.flatMap (fun c : SentFrame => [levelByte c.level, flowByte c.flow, byteOf c.segmentsSent])
        ++ List.replicate (12 - 3 * s.egress.stack.length) 0
        ++ [s.lineOut.holdMask.zeroExtend 8, s.egress.pendingAborts.zeroExtend 8, boolByte s.egress.streamReset,
            (if s.lineIn.state = .down then 0 else 1) + (if s.lineOut.state = .down then 0 else 2),
            byteOf (s.agent.inbox.length - 1), byteOf (s.agent.outbox.length + 1), byteOf s.merge.buffer.length]
        ++ [byteOf s.reports.length] ++ s.reports.map (fun r => r.kind.byte) ++ List.replicate (7 - s.reports.length) 0xFF
        ++ be32 s.pacing.tickCounter ∧
      (s.egress.stack.length ≤ 4 → s.reports.length ≤ 7 → results.length = 53))

/-- WRITE_SETTINGS, judged in order (R127, R143, R144): Range with the first out-of-range setting; Busy while a job runs, when the
Management Label, the Unmapped Policy or the Default Flow changes; Conflict 1 when the active map holds the new Management Label; Conflict
2 when the new policy sends to a Default Flow Absent in the active bank; else Done, with the record replaced whole and the standby bank's
Ready mark cleared exactly when one of the two questions is yes of it. The response carries the label in force before (R137). -/
def Obligations.WriteSettingsIsJudgedInOrder : Prop :=
  ∀ (s : State) (e : InboxEntry), s.Begins 0x03 [12] e →
    let word : Nat → Word16 := operandWord e.operands
    let byte : Nat → Byte := operandByte e.operands
    let bad : Option Nat :=
      if word 4 = 0 ∨ 4096 < (word 4).toNat then some 2
      else if 128 < (byte 6).toNat then some 3
      else if 1 < (byte 9).toNat then some 5
      else if 128 ≤ (byte 11).toNat then some 7 else none
    let new : Settings :=
      { managementLabel := word 0, responseLabel := word 2, tickPeriod := word 4, reserveFloor := byte 6, stallLimit := word 7,
        unmappedPolicy := if byte 9 = 0 then .discard else .defaultFlow, defaultFlow := (byte 10).toFin,
        reportEnable := (byte 11).extractLsb' 0 7 }
    let mapsLabel : BankContents → Prop := fun c => ∃ x ∈ c.map, x.label = new.managementLabel
    let lacksDefault : BankContents → Prop := fun c =>
      new.unmappedPolicy = .defaultFlow ∧ (c.flows[new.defaultFlow]).present = false
    let samePlan : Prop := new.managementLabel = s.settings.managementLabel ∧ new.unmappedPolicy = s.settings.unmappedPolicy ∧
      new.defaultFlow = s.settings.defaultFlow
    let standby : Bank := s.plan.active.other
    let done : PlanStore → State := fun plan =>
      State.answered { s with plan := plan, agent := { s.agent with settings := new } } s.settings.responseLabel e .done []
    (∀ n, bad = some n → exec .writeSettings s = .next (s.answer e .range [byteOf n])) ∧
    (bad = none →
      (s.plan.job ≠ none → ¬ samePlan → exec .writeSettings s = .next (s.answer e .busy [])) ∧
      (s.plan.job = none ∨ samePlan →
        (mapsLabel s.plan.activeBank → exec .writeSettings s = .next (s.answer e .conflict [1])) ∧
        (¬ mapsLabel s.plan.activeBank → lacksDefault s.plan.activeBank →
          exec .writeSettings s = .next (s.answer e .conflict [2])) ∧
        (¬ mapsLabel s.plan.activeBank → ¬ lacksDefault s.plan.activeBank →
          (mapsLabel (s.plan.bank standby) ∨ lacksDefault (s.plan.bank standby) →
            exec .writeSettings s = .next (done (s.plan.setBank standby { s.plan.bank standby with ready := false }))) ∧
          (¬ mapsLabel (s.plan.bank standby) → ¬ lacksDefault (s.plan.bank standby) →
            exec .writeSettings s = .next (done s.plan)))))

/-- RESTART_TRAFFIC and RESTART_TRAFFIC_COMPLETION (R146, R147): the agent leaves the Inbox entry, reserves its Outbox place and enters
Restarting; each of the three blocks takes the request once; when the last has taken it, the Done response is placed in the reserved entry
with the Response Label then in force, the record is replaced and the state is Free. Before that, and outside Restarting, these events do
not occur (log 2); the marks of what has been taken are the model's (log 9). -/
def Obligations.RestartTrafficWaitsForTheThreeBlocks : Prop :=
  ∀ (s : State),
    (∀ e, s.Begins 0x12 [0] e → exec .restartTraffic s = .next { s with agent := { s.agent with
      inbox := s.agent.inbox.tail, outbox := s.agent.outbox ++ [.reserved],
      execution := .restarting e.transaction false false false } }) ∧
    (∀ transaction before, s.agent.execution = .restarting transaction true true true → s.agent.outbox = before ++ [.reserved] →
      let response : Response := { label := s.settings.responseLabel, transaction := transaction, code := 0x12, status := .done,
                                   repeated := false, results := [] }
      exec .restartTrafficCompletion s = .next { s with agent := { s.agent with
        outbox := before ++ [.ready response], execution := .free,
        last := some { transaction := transaction, code := 0x12, response := response } } }) ∧
    ((∀ transaction, s.agent.execution ≠ .restarting transaction true true true) →
      exec .restartTrafficCompletion s = .next s) ∧
    ((∀ transaction p g, s.agent.execution ≠ .restarting transaction false p g) → exec .restartAtLineInReceiver s = .next s) ∧
    ((∀ transaction r p, s.agent.execution ≠ .restarting transaction r p false) → exec .restartAtEgressScheduler s = .next s)

/-! ## The plan commands -/

/-- READ_MAP_ENTRY, READ_FLOW and LIST_MAP (R118, R119, R140): of either bank, whether or not a job runs, they change nothing but the
Inbox, the Outbox and the record; a bank that is not A or B is refused with Range. Read Map Entry answers the label's Flow, or Missing;
Read Flow the whole descriptor as stored; List Map the entry count, More, and up to 32 entries in ascending order, those above the
Previous Label when one is given. -/
def Obligations.PlanReadsAnswerFromEitherBank : Prop :=
  ∀ (s : State) (e : InboxEntry),
    ((∀ b : Bank, operandByte e.operands 0 ≠ b.byte) → ∀ c code lengths,
      (c, code, lengths) ∈ [(Instr.readMapEntry, 0x05#8, [3]), (.readFlow, 0x09#8, [2]), (.listMap, 0x06#8, [1, 3])] →
        s.Begins code lengths e → exec c s = .next (s.answer e .range [])) ∧
    ∀ b : Bank, operandByte e.operands 0 = b.byte →
      let map := (s.plan.bank b).map
      (s.Begins 0x05 [3] e → mapSorted map = true →
        (∀ f, MapEntry.mk (operandWord e.operands 1) f ∈ map → exec .readMapEntry s = .next (s.answer e .done [byteOf f.val])) ∧
        ((∀ x ∈ map, x.label ≠ operandWord e.operands 1) → exec .readMapEntry s = .next (s.answer e .missing []))) ∧
      (s.Begins 0x09 [2] e →
        let d := (s.plan.bank b).flows[operandFlow e.operands 1]
        exec .readFlow s = .next (s.answer e .done
          ([boolByte d.present, levelByte d.urgency, boolByte d.preemptible, boolByte d.preempting, d.mode.byte]
            ++ be16 d.param1 ++ be16 d.param2 ++ be16 d.param3 ++ be16 d.param4 ++ [d.depthLimit, d.overflow.byte]
            ++ be16 d.maxResidence ++ [d.generation]))) ∧
      (s.Begins 0x06 [1, 3] e → ∀ rest : List MapEntry,
        rest = (if e.operandLength = 1 then map
          else map.filter (fun x => decide ((operandWord e.operands 1).toNat < x.label.toNat))) →
        exec .listMap s = .next (s.answer e .done
          (wordOf map.length ++ [if 32 < rest.length then 1 else 0, byteOf (min 32 rest.length)]
            ++ (rest.take 32).flatMap (fun x => be16 x.label ++ [byteOf x.flow.val]))))

/-- The bank guard (R111, R112, R120): of the six commands that change a bank or start a job on it, one that names no bank is refused with
Range, one that names the active bank with ActiveBank, and one on the standby bank with Busy while a job runs, or, for Copy Plan and Check
Plan, while a JobDone record is pending; a refused command changes nothing but the Inbox, the Outbox and the record. -/
def Obligations.BankGuardJudgesFirst : Prop :=
  ∀ (s : State) (e : InboxEntry) (c : Instr) (code : Byte) (lengths : List Nat),
    (c, code, lengths) ∈ [(Instr.writeMapEntry, 0x07#8, [4]), (.removeMapEntry, 0x08#8, [3]), (.writeFlow, 0x0A#8, [20]),
      (.modifyFlow, 0x0B#8, [22]), (.copyPlan, 0x0C#8, [1]), (.checkPlan, 0x0D#8, [1])] →
    s.Begins code lengths e →
    ((∀ b : Bank, operandByte e.operands 0 ≠ b.byte) → exec c s = .next (s.answer e .range [])) ∧
    (operandByte e.operands 0 = s.plan.active.byte → exec c s = .next (s.answer e .activeBank [])) ∧
    (operandByte e.operands 0 = s.plan.active.other.byte →
      s.plan.job ≠ none ∨ ((c = .copyPlan ∨ c = .checkPlan) ∧ ∃ r ∈ s.reports, r.kind = .jobDone) →
      exec c s = .next (s.answer e .busy []))

/-- WRITE_MAP_ENTRY and REMOVE_MAP_ENTRY on the standby bank with no job running (R109, R113, R114, R115): a held label's Flow is replaced
in its place; a new entry joins at the place its label gives, or is refused with Full at 512 entries; a removed entry leaves its place, or
the answer is Missing. A success clears the bank's Ready mark and answers the entry count after it. -/
def Obligations.MapEntriesAreWrittenAndRemovedInPlace : Prop :=
  ∀ (s : State) (e : InboxEntry),
    let b := s.plan.active.other
    let c := s.plan.bank b
    let label := operandWord e.operands 1
    let written : List MapEntry → List Byte → State := fun m results =>
      State.answer { s with plan := s.plan.setBank b { c with map := m, ready := false } } e .done results
    operandByte e.operands 0 = b.byte → s.plan.job = none → mapSorted c.map = true →
    (s.Begins 0x07 [4] e →
      let entry : MapEntry := { label := label, flow := operandFlow e.operands 3 }
      (∀ before old after, c.map = before ++ { label := label, flow := old } :: after →
        exec .writeMapEntry s = .next (written (before ++ entry :: after) (wordOf c.map.length ++ [0]))) ∧
      (∀ before after, c.map = before ++ after → (∀ x ∈ before, x.label.toNat < label.toNat) →
        (∀ x ∈ after, label.toNat < x.label.toNat) →
        exec .writeMapEntry s = .next
          (if c.map.length < 512 then written (before ++ entry :: after) (wordOf (c.map.length + 1) ++ [1])
          else s.answer e .full []))) ∧
    (s.Begins 0x08 [3] e →
      (∀ before old after, c.map = before ++ { label := label, flow := old } :: after →
        exec .removeMapEntry s = .next (written (before ++ after) ([byteOf old.val] ++ wordOf (before.length + after.length)))) ∧
      ((∀ x ∈ c.map, x.label ≠ label) → exec .removeMapEntry s = .next (s.answer e .missing [])))

/-- WRITE_FLOW and MODIFY_FLOW on the standby bank with no job running (R110, R113, R116, R117): the record, or for Modify Flow the held
descriptor with the selected fields replaced, is refused with Range and its first out-of-range field in table order, or stored whole,
every field as sent, with the bank's Ready mark cleared. Modify Flow first refuses a select set with a bit from 13 to 15 with field number
13. -/
def Obligations.FlowWritesStoreOnlyValidDescriptors : Prop :=
  ∀ (s : State) (e : InboxEntry),
    let b := s.plan.active.other
    let c := s.plan.bank b
    let f := operandFlow e.operands 1
    let outOfRange : DescriptorRecord → Nat → Prop := fun r n =>
      let mode := r.mode.toNat
      let p1 := r.param1.toNat
      let p2 := r.param2.toNat
      let p3 := r.param3.toNat
      let p4 := r.param4.toNat
      (n = 0 ∧ 1 < r.present.toNat) ∨ (n = 1 ∧ 3 < r.urgency.toNat) ∨ (n = 2 ∧ 1 < r.preemptible.toNat) ∨
      (n = 3 ∧ 1 < r.preempting.toNat) ∨ (n = 4 ∧ 4 < mode) ∨
      (n = 5 ∧ ((1 ≤ mode ∧ mode ≤ 4 ∧ p1 = 0) ∨ (mode = 2 ∧ 64 < p1))) ∨
      (n = 6 ∧ ((mode = 2 ∧ (p2 < 16 ∨ 4096 < p2)) ∨ (mode = 3 ∧ p2 = 0) ∨ (mode = 4 ∧ (p2 = 0 ∨ 255 < p2)))) ∨
      (n = 7 ∧ ((mode = 3 ∧ 255 < p3) ∨ (mode = 4 ∧ (p3 = 0 ∨ 255 < p3)))) ∨ (n = 8 ∧ mode = 4 ∧ p4 = 0) ∨
      (n = 9 ∧ (r.depthLimit = 0 ∨ 64 < r.depthLimit.toNat)) ∨ (n = 10 ∧ 1 < r.overflow.toNat)
    let judged : Instr → DescriptorRecord → Prop := fun cmd r =>
      (∀ n, outOfRange r n → (∀ m, m < n → ¬ outOfRange r m) → exec cmd s = .next (s.answer e .range [byteOf n])) ∧
      ((∀ n, ¬ outOfRange r n) → ∃ d : Descriptor, d.record = r ∧
        exec cmd s = .next (State.answer
          { s with plan := s.plan.setBank b { c with flows := c.flows.set f d, ready := false } } e .done []))
    operandByte e.operands 0 = b.byte → s.plan.job = none →
    (s.Begins 0x0A [20] e → judged .writeFlow (operandDescriptor e.operands 2)) ∧
    (s.Begins 0x0B [22] e →
      (8192 ≤ (operandWord e.operands 2).toNat → exec .modifyFlow s = .next (s.answer e .range [13])) ∧
      ((operandWord e.operands 2).toNat < 8192 →
        judged .modifyFlow ((c.flows[f]).record.select (operandDescriptor e.operands 4) (operandWord e.operands 2))))

/-- COPY_PLAN and CHECK_PLAN accepted (R112, R113, R120): the Job slot takes the kind, the standby bank and the transaction number with
Progress 0, in phase Map, or Flows at once when the Map phase has no items (log 14); the bank's Ready mark is cleared, and for Copy Plan
its map emptied; the answer is Accepted. -/
def Obligations.JobsStartOnTheStandbyBank : Prop :=
  ∀ (s : State) (e : InboxEntry),
    let b := s.plan.active.other
    let c := s.plan.bank b
    let started : JobKind → List MapEntry → List MapEntry → State := fun kind map items =>
      State.answer { s with plan := { s.plan.setBank b { c with map := map, ready := false } with
        job := some { kind := kind, bank := b, transaction := e.transaction,
                      phase := if items = [] then .flows else .map, progress := 0 } } } e .accepted []
    operandByte e.operands 0 = b.byte → s.plan.job = none → (∀ r ∈ s.reports, r.kind ≠ .jobDone) →
    (s.Begins 0x0C [1] e → exec .copyPlan s = .next (started .copy [] s.plan.activeBank.map)) ∧
    (s.Begins 0x0D [1] e → exec .checkPlan s = .next (started .check c.map c.map))

/-- JOB_ITEM_COMPLETION (R121, R122, R123, R125). Copy Plan appends one entry of the active map, or replaces one descriptor with the
active bank's, and ends Completed at descriptor 255. Check Plan tests one entry (DanglingFlow, then ReservedLabel) or one descriptor
(DefaultFlowAbsent): the first failure ends it Failed, with the failing item counted; descriptor 255 passing ends it Completed and sets
the Ready mark. Progress rises by 1, and after the last map entry the phase is Flows with Progress 0; an end empties the slot and posts
JobDone with the job as it stood. With no job there is no such event (log 2). -/
def Obligations.JobItemsCopyOrTestTheBank : Prop :=
  ∀ s : State,
    (s.plan.job = none → exec .jobItemCompletion s = .next s) ∧
    ∀ j, s.plan.job = some j →
      let source := s.plan.activeBank
      let target := s.plan.bank j.bank
      let bankNow : BankContents → PlanStore := fun c => s.plan.setBank j.bank c
      let going : PlanStore → JobPhase → Nat → State := fun plan phase progress =>
        { s with plan := { plan with job := some { j with phase := phase, progress := progress } } }
      let ended : PlanStore → Nat → JobResult → State := fun plan progress result =>
        State.post { s with plan := { plan with job := none } }
          (.jobDone { job := { j with progress := progress }, result := result })
      let afterEntry : PlanStore → List MapEntry → State := fun plan items =>
        if j.progress + 1 = items.length then going plan .flows 0 else going plan .map (j.progress + 1)
      (∀ x, j.kind = .copy → j.phase = .map → source.map[j.progress]? = some x →
        (∀ y ∈ target.map, y.label.toNat < x.label.toNat) →
        exec .jobItemCompletion s = .next (afterEntry (bankNow { target with map := target.map ++ [x] }) source.map)) ∧
      (∀ f : Flow, j.kind = .copy → j.phase = .flows → j.progress = f.val →
        let copied := bankNow { target with flows := target.flows.set f source.flows[f] }
        exec .jobItemCompletion s = .next
          (if f.val = 255 then ended copied 256 .completed else going copied .flows (j.progress + 1))) ∧
      (∀ x, j.kind = .check → j.phase = .map → target.map[j.progress]? = some x →
        ((target.flows[x.flow]).present = false →
          exec .jobItemCompletion s = .next (ended s.plan (j.progress + 1) (.failed (.danglingFlow x.label)))) ∧
        ((target.flows[x.flow]).present = true → x.label = s.settings.managementLabel →
          exec .jobItemCompletion s = .next (ended s.plan (j.progress + 1) (.failed (.reservedLabel x.label)))) ∧
        ((target.flows[x.flow]).present = true → x.label ≠ s.settings.managementLabel →
          exec .jobItemCompletion s = .next (afterEntry s.plan target.map))) ∧
      (∀ f : Flow, j.kind = .check → j.phase = .flows → j.progress = f.val →
        let fails : Prop := f = s.settings.defaultFlow ∧ s.settings.unmappedPolicy = .defaultFlow ∧
          (target.flows[f]).present = false
        (fails → exec .jobItemCompletion s = .next (ended s.plan (j.progress + 1) (.failed (.defaultFlowAbsent f)))) ∧
        (¬ fails → exec .jobItemCompletion s = .next
          (if f.val = 255 then ended (bankNow { target with ready := true }) 256 .completed
          else going s.plan .flows (j.progress + 1))))

/-- ABORT_JOB (R125, R126): the running job ends Aborted where it stands and JobDone is posted, or NoJob. SWAP_PLAN, judged in order (R71,
R128, R129): Range, Busy while a job runs, Done with nothing changed for the active bank, NotReady, else the swap: the named bank is
active, each bank keeps its mark, and of every flow Present before and Absent now the queue is discarded, each frame counted in Flushed
and its chain returned, and the context is none; lanes, stack and slot are not touched. The order of the chains of several flows is the
model's (log 13). -/
def Obligations.AbortEndsTheJobAndSwapFlipsTheBank : Prop :=
  ∀ (s : State) (e : InboxEntry),
    (s.Begins 0x0F [0] e →
      (s.plan.job = none → exec .abortJob s = .next (s.answer e .noJob [])) ∧
      (∀ j, s.plan.job = some j → exec .abortJob s = .next (State.answer
        (State.post { s with plan := { s.plan with job := none } } (.jobDone { job := j, result := .aborted })) e .done []))) ∧
    (s.Begins 0x0E [1] e →
      ((∀ b : Bank, operandByte e.operands 0 ≠ b.byte) → exec .swapPlan s = .next (s.answer e .range [])) ∧
      ∀ b : Bank, operandByte e.operands 0 = b.byte →
        (s.plan.job ≠ none → exec .swapPlan s = .next (s.answer e .busy [])) ∧
        (s.plan.job = none → b = s.plan.active → exec .swapPlan s = .next (s.answer e .done [b.byte])) ∧
        (s.plan.job = none → b ≠ s.plan.active → (s.plan.bank b).ready = false →
          exec .swapPlan s = .next (s.answer e .notReady [])) ∧
        (s.plan.job = none → b ≠ s.plan.active → (s.plan.bank b).ready = true →
          let gone : Flow → Bool := fun f =>
            (s.plan.activeBank.flows[f]).present && !((s.plan.bank b).flows[f]).present
          let frames : List QueuedFrame := (allFlows.filter gone).flatMap (fun f : Flow => s.pacing.queues[f])
          exec .swapPlan s = .next (State.answer { s with
            plan := { s.plan with active := b },
            pacing := { s.pacing with
              queues := Vector.ofFn (fun f : Flow => if gone f then [] else s.pacing.queues[f]),
              contexts := Vector.ofFn (fun f : Flow => if gone f then none else s.pacing.contexts[f]) },
            store := { s.store with free := (frames.flatMap (fun q : QueuedFrame => q.chain)).reverse ++ s.store.free },
            counters := frames.foldl (fun b (q : QueuedFrame) => b.addFlow q.flow .flushed 1) s.counters } e .done [b.byte])))

/-! ## The flow commands and the counters -/

/-- FLUSH_FLOW (R72): the named flow's queue is emptied, head first, each frame's chain returned as one return and counted in the Flushed
of its flow, and the answer carries their number; contexts, lanes and descriptors stay. READ_PACING (R73, 10 section 10.2): whether the
flow is Present in the active bank, its queue length, the head's age, its context as stored and the Tick Counter; nothing is changed but
the draw (log 4), and the two bytes of a context that is none are free values (log 11). -/
def Obligations.FlushEmptiesAndReadPacingReportsOneFlow : Prop :=
  ∀ (s : State) (e : InboxEntry),
    let f := operandFlow e.operands 0
    let queue := s.pacing.queues[f]
    (s.Begins 0x11 [1] e →
      exec .flushFlow s = .next (State.answer { s with
        pacing := { s.pacing with queues := s.pacing.queues.set f [] },
        store := { s.store with free := (queue.flatMap (fun q : QueuedFrame => q.chain)).reverse ++ s.store.free },
        counters := queue.foldl (fun b (q : QueuedFrame) => b.addFlow q.flow .flushed 1) s.counters }
        e .done [byteOf queue.length])) ∧
    (s.Begins 0x10 [1] e → ∃ (x y : Byte) (results : List Byte),
      exec .readPacing s = .next (State.answer { s with draws := s.draws + 1 } e .done results) ∧
      results = [boolByte (s.plan.activeBank.flows[f]).present, byteOf queue.length]
        ++ (match queue with
          | head :: _ => [1] ++ be32 (s.pacing.tickCounter - head.arrivalTick)
          | [] => [0, 0, 0, 0, 0])
        ++ (match s.pacing.contexts[f] with
          | some c => [1, c.generation, c.counters.mode.byte] ++ (match c.counters with
            | .openMode => [0, 0, 0, 0, 0, 0, 0, 0]
            | .interval countdown => wordOf countdown ++ [0, 0, 0, 0, 0, 0]
            | .credit credit => wordOf credit ++ [0, 0, 0, 0, 0, 0]
            | .gate phase position released =>
              [if phase = .opened then 0 else 1] ++ wordOf position ++ [released, 0, 0, 0, 0]
            | .tiered tick sent window sentInEpoch =>
              wordOf tick ++ [byteOf sent, byteOf window] ++ wordOf sentInEpoch ++ [0, 0])
          | none => [0, x, y, 0, 0, 0, 0, 0, 0, 0, 0])
        ++ be32 s.pacing.tickCounter ∧
      results.length = 22)

/-- READ_COUNTERS and READ_AND_CLEAR_COUNTERS (R166, R167): a range of the Global group or of the Flow group is answered with its echo and
the counters' values, in index order, as they stand; Read and Clear then sets exactly those counters to 0; a group, First or Count out of
range, or a range past the end, is refused with Range and nothing is read or cleared. -/
def Obligations.CounterCommandsReadAndClearARange : Prop :=
  ∀ (s : State) (e : InboxEntry),
    let group := operandByte e.operands 0
    let first := (operandByte e.operands 1).toNat
    let count := (operandByte e.operands 2).toNat
    let isGlobal : Prop := group = 0 ∧ first ≤ 13 ∧ 1 ≤ count ∧ count ≤ 14 ∧ first + count ≤ 14
    let isFlow : Prop := group = 1 ∧ 1 ≤ count ∧ count ≤ 8 ∧ first + count ≤ 256
    let results : List Word32 → List Byte := fun values =>
      [group, operandByte e.operands 1, operandByte e.operands 2] ++ values.flatMap be32
    let globals : List Word32 := (s.counters.globals.toList.drop first).take count
    let flows : List Word32 := ((s.counters.flows.toList.drop first).take count).flatMap (fun v => v.toList)
    let inRange : Nat → Prop := fun i => first ≤ i ∧ i < first + count
    (s.Begins 0x13 [3] e →
      (isGlobal → exec .readCounters s = .next (s.answer e .done (results globals))) ∧
      (isFlow → exec .readCounters s = .next (s.answer e .done (results flows))) ∧
      (¬ isGlobal → ¬ isFlow → exec .readCounters s = .next (s.answer e .range []))) ∧
    (s.Begins 0x14 [3] e →
      (isGlobal → ∃ counters,
        exec .readAndClearCounters s = .next (State.answer { s with counters := counters } e .done (results globals)) ∧
        (∀ c, inRange c.index.val → counters.read c = 0) ∧
        (∀ c, ¬ inRange c.index.val → counters.read c = s.counters.read c) ∧
        (∀ f c, counters.readFlow f c = s.counters.readFlow f c)) ∧
      (isFlow → ∃ counters,
        exec .readAndClearCounters s = .next (State.answer { s with counters := counters } e .done (results flows)) ∧
        (∀ c, counters.read c = s.counters.read c) ∧
        (∀ (f : Flow) c, inRange f.val → counters.readFlow f c = 0) ∧
        (∀ (f : Flow) c, ¬ inRange f.val → counters.readFlow f c = s.counters.readFlow f c)) ∧
      (¬ isGlobal → ¬ isFlow → exec .readAndClearCounters s = .next (s.answer e .range [])))

/-- Counting and posting (R164, R169, R170). An increment raises its own counter by 1, or leaves it at 4294967295, and nothing else. A
posting of a kind not in Report Enable changes nothing; of an enabled kind it opens a record at the tail, or is gathered into the pending
record of its kind, which keeps its place and its First Detail; nothing else changes. Both are made in the step that causes them (log 22). -/
def Obligations.CountersSaturateAndPostingsGather : Prop :=
  ∀ s : State,
    (∀ c, ∃ b : CounterBank, s.count c = { s with counters := b } ∧
      (b.read c).toNat = min ((s.counters.read c).toNat + 1) 4294967295 ∧
      (∀ k, k ≠ c → b.read k = s.counters.read k) ∧ (∀ f k, b.readFlow f k = s.counters.readFlow f k)) ∧
    (∀ f c, ∃ b : CounterBank, s.countFlow f c = { s with counters := b } ∧
      (b.readFlow f c).toNat = min ((s.counters.readFlow f c).toNat + 1) 4294967295 ∧
      (∀ g k, ¬ (g = f ∧ k = c) → b.readFlow g k = s.counters.readFlow g k) ∧ (∀ k, b.read k = s.counters.read k)) ∧
    ∀ d : Detail,
      (s.settings.reportEnable.getLsbD d.kind.index.val = false → s.post d = s) ∧
      (s.settings.reportEnable.getLsbD d.kind.index.val = true →
        ((∀ r ∈ s.reports, r.kind ≠ d.kind) →
          s.post d = { s with reports := s.reports ++ [{ first := d, occurrences := 1, latestTick := s.pacing.tickCounter }] }) ∧
        (∀ before r after, s.reports = before ++ r :: after → r.kind = d.kind → (∀ x ∈ before ++ after, x.kind ≠ d.kind) →
          s.post d = { s with reports := before ++
            { r with occurrences := if r.occurrences < 65535 then r.occurrences + 1 else r.occurrences,
                     latestTick := s.pacing.tickCounter } :: after }))
end

