-- ==== Sys2Proof/Laws/State.lean ====
section
/-! SUPPORT. The small lemmas of the named updates of State: for each update, what every field is after it. -/

namespace Sys2Proof.Machine

variable (s : State)

/-! ### `State.count` -/

@[simp] theorem State.count_pending (c : GlobalCounter) : (s.count c).pending = s.pending := rfl
@[simp] theorem State.count_draws (c : GlobalCounter) : (s.count c).draws = s.draws := rfl
@[simp] theorem State.count_lineIn (c : GlobalCounter) : (s.count c).lineIn = s.lineIn := rfl
@[simp] theorem State.count_classifier (c : GlobalCounter) : (s.count c).classifier = s.classifier := rfl
@[simp] theorem State.count_store (c : GlobalCounter) : (s.count c).store = s.store := rfl
@[simp] theorem State.count_plan (c : GlobalCounter) : (s.count c).plan = s.plan := rfl
@[simp] theorem State.count_pacing (c : GlobalCounter) : (s.count c).pacing = s.pacing := rfl
@[simp] theorem State.count_egress (c : GlobalCounter) : (s.count c).egress = s.egress := rfl
@[simp] theorem State.count_lineOut (c : GlobalCounter) : (s.count c).lineOut = s.lineOut := rfl
@[simp] theorem State.count_merge (c : GlobalCounter) : (s.count c).merge = s.merge := rfl
@[simp] theorem State.count_agent (c : GlobalCounter) : (s.count c).agent = s.agent := rfl
@[simp] theorem State.count_counters (c : GlobalCounter) : (s.count c).counters = s.counters.add c 1 := rfl
@[simp] theorem State.count_reports (c : GlobalCounter) : (s.count c).reports = s.reports := rfl

/-! ### `State.countFlow` -/

@[simp] theorem State.countFlow_pending (f : Flow) (c : FlowCounter) : (s.countFlow f c).pending = s.pending := rfl
@[simp] theorem State.countFlow_draws (f : Flow) (c : FlowCounter) : (s.countFlow f c).draws = s.draws := rfl
@[simp] theorem State.countFlow_lineIn (f : Flow) (c : FlowCounter) : (s.countFlow f c).lineIn = s.lineIn := rfl
@[simp] theorem State.countFlow_classifier (f : Flow) (c : FlowCounter) : (s.countFlow f c).classifier = s.classifier := rfl
@[simp] theorem State.countFlow_store (f : Flow) (c : FlowCounter) : (s.countFlow f c).store = s.store := rfl
@[simp] theorem State.countFlow_plan (f : Flow) (c : FlowCounter) : (s.countFlow f c).plan = s.plan := rfl
@[simp] theorem State.countFlow_pacing (f : Flow) (c : FlowCounter) : (s.countFlow f c).pacing = s.pacing := rfl
@[simp] theorem State.countFlow_egress (f : Flow) (c : FlowCounter) : (s.countFlow f c).egress = s.egress := rfl
@[simp] theorem State.countFlow_lineOut (f : Flow) (c : FlowCounter) : (s.countFlow f c).lineOut = s.lineOut := rfl
@[simp] theorem State.countFlow_merge (f : Flow) (c : FlowCounter) : (s.countFlow f c).merge = s.merge := rfl
@[simp] theorem State.countFlow_agent (f : Flow) (c : FlowCounter) : (s.countFlow f c).agent = s.agent := rfl
@[simp] theorem State.countFlow_counters (f : Flow) (c : FlowCounter) : (s.countFlow f c).counters = s.counters.addFlow f c 1 := rfl
@[simp] theorem State.countFlow_reports (f : Flow) (c : FlowCounter) : (s.countFlow f c).reports = s.reports := rfl

/-! ### `State.post` -/

@[simp] theorem State.post_pending (d : Detail) : (s.post d).pending = s.pending := rfl
@[simp] theorem State.post_draws (d : Detail) : (s.post d).draws = s.draws := rfl
@[simp] theorem State.post_lineIn (d : Detail) : (s.post d).lineIn = s.lineIn := rfl
@[simp] theorem State.post_classifier (d : Detail) : (s.post d).classifier = s.classifier := rfl
@[simp] theorem State.post_store (d : Detail) : (s.post d).store = s.store := rfl
@[simp] theorem State.post_plan (d : Detail) : (s.post d).plan = s.plan := rfl
@[simp] theorem State.post_pacing (d : Detail) : (s.post d).pacing = s.pacing := rfl
@[simp] theorem State.post_egress (d : Detail) : (s.post d).egress = s.egress := rfl
@[simp] theorem State.post_lineOut (d : Detail) : (s.post d).lineOut = s.lineOut := rfl
@[simp] theorem State.post_merge (d : Detail) : (s.post d).merge = s.merge := rfl
@[simp] theorem State.post_agent (d : Detail) : (s.post d).agent = s.agent := rfl
@[simp] theorem State.post_counters (d : Detail) : (s.post d).counters = s.counters := rfl
@[simp] theorem State.post_reports (d : Detail) : (s.post d).reports = if s.agent.settings.enables d.kind then postInto s.reports d s.pacing.tickCounter else s.reports := rfl

/-! ### `State.returnChain` -/

@[simp] theorem State.returnChain_pending (chain : List BlockNo) : (s.returnChain chain).pending = s.pending := rfl
@[simp] theorem State.returnChain_draws (chain : List BlockNo) : (s.returnChain chain).draws = s.draws := rfl
@[simp] theorem State.returnChain_lineIn (chain : List BlockNo) : (s.returnChain chain).lineIn = s.lineIn := rfl
@[simp] theorem State.returnChain_classifier (chain : List BlockNo) : (s.returnChain chain).classifier = s.classifier := rfl
@[simp] theorem State.returnChain_store (chain : List BlockNo) : (s.returnChain chain).store = s.store.returnChain chain := rfl
@[simp] theorem State.returnChain_plan (chain : List BlockNo) : (s.returnChain chain).plan = s.plan := rfl
@[simp] theorem State.returnChain_pacing (chain : List BlockNo) : (s.returnChain chain).pacing = s.pacing := rfl
@[simp] theorem State.returnChain_egress (chain : List BlockNo) : (s.returnChain chain).egress = s.egress := rfl
@[simp] theorem State.returnChain_lineOut (chain : List BlockNo) : (s.returnChain chain).lineOut = s.lineOut := rfl
@[simp] theorem State.returnChain_merge (chain : List BlockNo) : (s.returnChain chain).merge = s.merge := rfl
@[simp] theorem State.returnChain_agent (chain : List BlockNo) : (s.returnChain chain).agent = s.agent := rfl
@[simp] theorem State.returnChain_counters (chain : List BlockNo) : (s.returnChain chain).counters = s.counters := rfl
@[simp] theorem State.returnChain_reports (chain : List BlockNo) : (s.returnChain chain).reports = s.reports := rfl

/-! ### `State.returnChains` -/

@[simp] theorem State.returnChains_pending (chains : List (List BlockNo)) : (s.returnChains chains).pending = s.pending := rfl
@[simp] theorem State.returnChains_draws (chains : List (List BlockNo)) : (s.returnChains chains).draws = s.draws := rfl
@[simp] theorem State.returnChains_lineIn (chains : List (List BlockNo)) : (s.returnChains chains).lineIn = s.lineIn := rfl
@[simp] theorem State.returnChains_classifier (chains : List (List BlockNo)) : (s.returnChains chains).classifier = s.classifier := rfl
@[simp] theorem State.returnChains_store (chains : List (List BlockNo)) : (s.returnChains chains).store = chains.foldl FrameStore.returnChain s.store := rfl
@[simp] theorem State.returnChains_plan (chains : List (List BlockNo)) : (s.returnChains chains).plan = s.plan := rfl
@[simp] theorem State.returnChains_pacing (chains : List (List BlockNo)) : (s.returnChains chains).pacing = s.pacing := rfl
@[simp] theorem State.returnChains_egress (chains : List (List BlockNo)) : (s.returnChains chains).egress = s.egress := rfl
@[simp] theorem State.returnChains_lineOut (chains : List (List BlockNo)) : (s.returnChains chains).lineOut = s.lineOut := rfl
@[simp] theorem State.returnChains_merge (chains : List (List BlockNo)) : (s.returnChains chains).merge = s.merge := rfl
@[simp] theorem State.returnChains_agent (chains : List (List BlockNo)) : (s.returnChains chains).agent = s.agent := rfl
@[simp] theorem State.returnChains_counters (chains : List (List BlockNo)) : (s.returnChains chains).counters = s.counters := rfl
@[simp] theorem State.returnChains_reports (chains : List (List BlockNo)) : (s.returnChains chains).reports = s.reports := rfl

/-! ### `State.setLineIn` -/

@[simp] theorem State.setLineIn_pending (r : LineInReceiver) : (s.setLineIn r).pending = s.pending := rfl
@[simp] theorem State.setLineIn_draws (r : LineInReceiver) : (s.setLineIn r).draws = s.draws := rfl
@[simp] theorem State.setLineIn_lineIn (r : LineInReceiver) : (s.setLineIn r).lineIn = r := rfl
@[simp] theorem State.setLineIn_classifier (r : LineInReceiver) : (s.setLineIn r).classifier = s.classifier := rfl
@[simp] theorem State.setLineIn_store (r : LineInReceiver) : (s.setLineIn r).store = s.store := rfl
@[simp] theorem State.setLineIn_plan (r : LineInReceiver) : (s.setLineIn r).plan = s.plan := rfl
@[simp] theorem State.setLineIn_pacing (r : LineInReceiver) : (s.setLineIn r).pacing = s.pacing := rfl
@[simp] theorem State.setLineIn_egress (r : LineInReceiver) : (s.setLineIn r).egress = s.egress := rfl
@[simp] theorem State.setLineIn_lineOut (r : LineInReceiver) : (s.setLineIn r).lineOut = s.lineOut := rfl
@[simp] theorem State.setLineIn_merge (r : LineInReceiver) : (s.setLineIn r).merge = s.merge := rfl
@[simp] theorem State.setLineIn_agent (r : LineInReceiver) : (s.setLineIn r).agent = s.agent := rfl
@[simp] theorem State.setLineIn_counters (r : LineInReceiver) : (s.setLineIn r).counters = s.counters := rfl
@[simp] theorem State.setLineIn_reports (r : LineInReceiver) : (s.setLineIn r).reports = s.reports := rfl

/-! ### `State.setQueue` -/

@[simp] theorem State.setQueue_pending (f : Flow) (q : List QueuedFrame) : (s.setQueue f q).pending = s.pending := rfl
@[simp] theorem State.setQueue_draws (f : Flow) (q : List QueuedFrame) : (s.setQueue f q).draws = s.draws := rfl
@[simp] theorem State.setQueue_lineIn (f : Flow) (q : List QueuedFrame) : (s.setQueue f q).lineIn = s.lineIn := rfl
@[simp] theorem State.setQueue_classifier (f : Flow) (q : List QueuedFrame) : (s.setQueue f q).classifier = s.classifier := rfl
@[simp] theorem State.setQueue_store (f : Flow) (q : List QueuedFrame) : (s.setQueue f q).store = s.store := rfl
@[simp] theorem State.setQueue_plan (f : Flow) (q : List QueuedFrame) : (s.setQueue f q).plan = s.plan := rfl
@[simp] theorem State.setQueue_pacing (f : Flow) (q : List QueuedFrame) : (s.setQueue f q).pacing = { s.pacing with queues := s.pacing.queues.set f q } := rfl
@[simp] theorem State.setQueue_egress (f : Flow) (q : List QueuedFrame) : (s.setQueue f q).egress = s.egress := rfl
@[simp] theorem State.setQueue_lineOut (f : Flow) (q : List QueuedFrame) : (s.setQueue f q).lineOut = s.lineOut := rfl
@[simp] theorem State.setQueue_merge (f : Flow) (q : List QueuedFrame) : (s.setQueue f q).merge = s.merge := rfl
@[simp] theorem State.setQueue_agent (f : Flow) (q : List QueuedFrame) : (s.setQueue f q).agent = s.agent := rfl
@[simp] theorem State.setQueue_counters (f : Flow) (q : List QueuedFrame) : (s.setQueue f q).counters = s.counters := rfl
@[simp] theorem State.setQueue_reports (f : Flow) (q : List QueuedFrame) : (s.setQueue f q).reports = s.reports := rfl

/-! ### `State.setBuffer` -/

@[simp] theorem State.setBuffer_pending (b : List ReturnEntry) : (s.setBuffer b).pending = s.pending := rfl
@[simp] theorem State.setBuffer_draws (b : List ReturnEntry) : (s.setBuffer b).draws = s.draws := rfl
@[simp] theorem State.setBuffer_lineIn (b : List ReturnEntry) : (s.setBuffer b).lineIn = s.lineIn := rfl
@[simp] theorem State.setBuffer_classifier (b : List ReturnEntry) : (s.setBuffer b).classifier = s.classifier := rfl
@[simp] theorem State.setBuffer_store (b : List ReturnEntry) : (s.setBuffer b).store = s.store := rfl
@[simp] theorem State.setBuffer_plan (b : List ReturnEntry) : (s.setBuffer b).plan = s.plan := rfl
@[simp] theorem State.setBuffer_pacing (b : List ReturnEntry) : (s.setBuffer b).pacing = s.pacing := rfl
@[simp] theorem State.setBuffer_egress (b : List ReturnEntry) : (s.setBuffer b).egress = s.egress := rfl
@[simp] theorem State.setBuffer_lineOut (b : List ReturnEntry) : (s.setBuffer b).lineOut = s.lineOut := rfl
@[simp] theorem State.setBuffer_merge (b : List ReturnEntry) : (s.setBuffer b).merge = { s.merge with buffer := b } := rfl
@[simp] theorem State.setBuffer_agent (b : List ReturnEntry) : (s.setBuffer b).agent = s.agent := rfl
@[simp] theorem State.setBuffer_counters (b : List ReturnEntry) : (s.setBuffer b).counters = s.counters := rfl
@[simp] theorem State.setBuffer_reports (b : List ReturnEntry) : (s.setBuffer b).reports = s.reports := rfl

/-! ### `State.setLineOutState` -/

@[simp] theorem State.setLineOutState_pending (x : LineOutState) : (s.setLineOutState x).pending = s.pending := rfl
@[simp] theorem State.setLineOutState_draws (x : LineOutState) : (s.setLineOutState x).draws = s.draws := rfl
@[simp] theorem State.setLineOutState_lineIn (x : LineOutState) : (s.setLineOutState x).lineIn = s.lineIn := rfl
@[simp] theorem State.setLineOutState_classifier (x : LineOutState) : (s.setLineOutState x).classifier = s.classifier := rfl
@[simp] theorem State.setLineOutState_store (x : LineOutState) : (s.setLineOutState x).store = s.store := rfl
@[simp] theorem State.setLineOutState_plan (x : LineOutState) : (s.setLineOutState x).plan = s.plan := rfl
@[simp] theorem State.setLineOutState_pacing (x : LineOutState) : (s.setLineOutState x).pacing = s.pacing := rfl
@[simp] theorem State.setLineOutState_egress (x : LineOutState) : (s.setLineOutState x).egress = s.egress := rfl
@[simp] theorem State.setLineOutState_lineOut (x : LineOutState) : (s.setLineOutState x).lineOut = { s.lineOut with state := x } := rfl
@[simp] theorem State.setLineOutState_merge (x : LineOutState) : (s.setLineOutState x).merge = s.merge := rfl
@[simp] theorem State.setLineOutState_agent (x : LineOutState) : (s.setLineOutState x).agent = s.agent := rfl
@[simp] theorem State.setLineOutState_counters (x : LineOutState) : (s.setLineOutState x).counters = s.counters := rfl
@[simp] theorem State.setLineOutState_reports (x : LineOutState) : (s.setLineOutState x).reports = s.reports := rfl

/-! ### `State.setTransmitter` -/

@[simp] theorem State.setTransmitter_pending (t : Transmitter) : (s.setTransmitter t).pending = s.pending := rfl
@[simp] theorem State.setTransmitter_draws (t : Transmitter) : (s.setTransmitter t).draws = s.draws := rfl
@[simp] theorem State.setTransmitter_lineIn (t : Transmitter) : (s.setTransmitter t).lineIn = s.lineIn := rfl
@[simp] theorem State.setTransmitter_classifier (t : Transmitter) : (s.setTransmitter t).classifier = s.classifier := rfl
@[simp] theorem State.setTransmitter_store (t : Transmitter) : (s.setTransmitter t).store = s.store := rfl
@[simp] theorem State.setTransmitter_plan (t : Transmitter) : (s.setTransmitter t).plan = s.plan := rfl
@[simp] theorem State.setTransmitter_pacing (t : Transmitter) : (s.setTransmitter t).pacing = s.pacing := rfl
@[simp] theorem State.setTransmitter_egress (t : Transmitter) : (s.setTransmitter t).egress = s.egress := rfl
@[simp] theorem State.setTransmitter_lineOut (t : Transmitter) : (s.setTransmitter t).lineOut = s.lineOut := rfl
@[simp] theorem State.setTransmitter_merge (t : Transmitter) : (s.setTransmitter t).merge = { s.merge with transmitter := t } := rfl
@[simp] theorem State.setTransmitter_agent (t : Transmitter) : (s.setTransmitter t).agent = s.agent := rfl
@[simp] theorem State.setTransmitter_counters (t : Transmitter) : (s.setTransmitter t).counters = s.counters := rfl
@[simp] theorem State.setTransmitter_reports (t : Transmitter) : (s.setTransmitter t).reports = s.reports := rfl

/-! ### `State.transmit` -/

@[simp] theorem State.transmit_pending (side : Side) (kind : SentKind) (bytes : List Byte) : (s.transmit side kind bytes).pending = s.pending := rfl
@[simp] theorem State.transmit_draws (side : Side) (kind : SentKind) (bytes : List Byte) : (s.transmit side kind bytes).draws = s.draws := rfl
@[simp] theorem State.transmit_lineIn (side : Side) (kind : SentKind) (bytes : List Byte) : (s.transmit side kind bytes).lineIn = s.lineIn := rfl
@[simp] theorem State.transmit_classifier (side : Side) (kind : SentKind) (bytes : List Byte) : (s.transmit side kind bytes).classifier = s.classifier := rfl
@[simp] theorem State.transmit_store (side : Side) (kind : SentKind) (bytes : List Byte) : (s.transmit side kind bytes).store = s.store := rfl
@[simp] theorem State.transmit_plan (side : Side) (kind : SentKind) (bytes : List Byte) : (s.transmit side kind bytes).plan = s.plan := rfl
@[simp] theorem State.transmit_pacing (side : Side) (kind : SentKind) (bytes : List Byte) : (s.transmit side kind bytes).pacing = s.pacing := rfl
@[simp] theorem State.transmit_egress (side : Side) (kind : SentKind) (bytes : List Byte) : (s.transmit side kind bytes).egress = s.egress := rfl
@[simp] theorem State.transmit_lineOut (side : Side) (kind : SentKind) (bytes : List Byte) : (s.transmit side kind bytes).lineOut = s.lineOut := rfl
@[simp] theorem State.transmit_merge (side : Side) (kind : SentKind) (bytes : List Byte) : (s.transmit side kind bytes).merge = { s.merge with lastServed := side, transmitter := .busy kind bytes } := rfl
@[simp] theorem State.transmit_agent (side : Side) (kind : SentKind) (bytes : List Byte) : (s.transmit side kind bytes).agent = s.agent := rfl
@[simp] theorem State.transmit_counters (side : Side) (kind : SentKind) (bytes : List Byte) : (s.transmit side kind bytes).counters = s.counters := rfl
@[simp] theorem State.transmit_reports (side : Side) (kind : SentKind) (bytes : List Byte) : (s.transmit side kind bytes).reports = s.reports := rfl

/-! ### `State.setBank` -/

@[simp] theorem State.setBank_pending (b : Bank) (c : BankContents) : (s.setBank b c).pending = s.pending := rfl
@[simp] theorem State.setBank_draws (b : Bank) (c : BankContents) : (s.setBank b c).draws = s.draws := rfl
@[simp] theorem State.setBank_lineIn (b : Bank) (c : BankContents) : (s.setBank b c).lineIn = s.lineIn := rfl
@[simp] theorem State.setBank_classifier (b : Bank) (c : BankContents) : (s.setBank b c).classifier = s.classifier := rfl
@[simp] theorem State.setBank_store (b : Bank) (c : BankContents) : (s.setBank b c).store = s.store := rfl
@[simp] theorem State.setBank_plan (b : Bank) (c : BankContents) : (s.setBank b c).plan = s.plan.setBank b c := rfl
@[simp] theorem State.setBank_pacing (b : Bank) (c : BankContents) : (s.setBank b c).pacing = s.pacing := rfl
@[simp] theorem State.setBank_egress (b : Bank) (c : BankContents) : (s.setBank b c).egress = s.egress := rfl
@[simp] theorem State.setBank_lineOut (b : Bank) (c : BankContents) : (s.setBank b c).lineOut = s.lineOut := rfl
@[simp] theorem State.setBank_merge (b : Bank) (c : BankContents) : (s.setBank b c).merge = s.merge := rfl
@[simp] theorem State.setBank_agent (b : Bank) (c : BankContents) : (s.setBank b c).agent = s.agent := rfl
@[simp] theorem State.setBank_counters (b : Bank) (c : BankContents) : (s.setBank b c).counters = s.counters := rfl
@[simp] theorem State.setBank_reports (b : Bank) (c : BankContents) : (s.setBank b c).reports = s.reports := rfl

/-! ### `State.writeBank` -/

@[simp] theorem State.writeBank_pending (b : Bank) (c : BankContents) : (s.writeBank b c).pending = s.pending := rfl
@[simp] theorem State.writeBank_draws (b : Bank) (c : BankContents) : (s.writeBank b c).draws = s.draws := rfl
@[simp] theorem State.writeBank_lineIn (b : Bank) (c : BankContents) : (s.writeBank b c).lineIn = s.lineIn := rfl
@[simp] theorem State.writeBank_classifier (b : Bank) (c : BankContents) : (s.writeBank b c).classifier = s.classifier := rfl
@[simp] theorem State.writeBank_store (b : Bank) (c : BankContents) : (s.writeBank b c).store = s.store := rfl
@[simp] theorem State.writeBank_plan (b : Bank) (c : BankContents) : (s.writeBank b c).plan = s.plan.setBank b { c with ready := false } := rfl
@[simp] theorem State.writeBank_pacing (b : Bank) (c : BankContents) : (s.writeBank b c).pacing = s.pacing := rfl
@[simp] theorem State.writeBank_egress (b : Bank) (c : BankContents) : (s.writeBank b c).egress = s.egress := rfl
@[simp] theorem State.writeBank_lineOut (b : Bank) (c : BankContents) : (s.writeBank b c).lineOut = s.lineOut := rfl
@[simp] theorem State.writeBank_merge (b : Bank) (c : BankContents) : (s.writeBank b c).merge = s.merge := rfl
@[simp] theorem State.writeBank_agent (b : Bank) (c : BankContents) : (s.writeBank b c).agent = s.agent := rfl
@[simp] theorem State.writeBank_counters (b : Bank) (c : BankContents) : (s.writeBank b c).counters = s.counters := rfl
@[simp] theorem State.writeBank_reports (b : Bank) (c : BankContents) : (s.writeBank b c).reports = s.reports := rfl

/-! ### `State.setJob` -/

@[simp] theorem State.setJob_pending (j : Job) : (s.setJob j).pending = s.pending := rfl
@[simp] theorem State.setJob_draws (j : Job) : (s.setJob j).draws = s.draws := rfl
@[simp] theorem State.setJob_lineIn (j : Job) : (s.setJob j).lineIn = s.lineIn := rfl
@[simp] theorem State.setJob_classifier (j : Job) : (s.setJob j).classifier = s.classifier := rfl
@[simp] theorem State.setJob_store (j : Job) : (s.setJob j).store = s.store := rfl
@[simp] theorem State.setJob_plan (j : Job) : (s.setJob j).plan = { s.plan with job := some j } := rfl
@[simp] theorem State.setJob_pacing (j : Job) : (s.setJob j).pacing = s.pacing := rfl
@[simp] theorem State.setJob_egress (j : Job) : (s.setJob j).egress = s.egress := rfl
@[simp] theorem State.setJob_lineOut (j : Job) : (s.setJob j).lineOut = s.lineOut := rfl
@[simp] theorem State.setJob_merge (j : Job) : (s.setJob j).merge = s.merge := rfl
@[simp] theorem State.setJob_agent (j : Job) : (s.setJob j).agent = s.agent := rfl
@[simp] theorem State.setJob_counters (j : Job) : (s.setJob j).counters = s.counters := rfl
@[simp] theorem State.setJob_reports (j : Job) : (s.setJob j).reports = s.reports := rfl

/-! ### `State.takeEntry` -/

@[simp] theorem State.takeEntry_pending : s.takeEntry.pending = s.pending := rfl
@[simp] theorem State.takeEntry_draws : s.takeEntry.draws = s.draws := rfl
@[simp] theorem State.takeEntry_lineIn : s.takeEntry.lineIn = s.lineIn := rfl
@[simp] theorem State.takeEntry_classifier : s.takeEntry.classifier = s.classifier := rfl
@[simp] theorem State.takeEntry_store : s.takeEntry.store = s.store := rfl
@[simp] theorem State.takeEntry_plan : s.takeEntry.plan = s.plan := rfl
@[simp] theorem State.takeEntry_pacing : s.takeEntry.pacing = s.pacing := rfl
@[simp] theorem State.takeEntry_egress : s.takeEntry.egress = s.egress := rfl
@[simp] theorem State.takeEntry_lineOut : s.takeEntry.lineOut = s.lineOut := rfl
@[simp] theorem State.takeEntry_merge : s.takeEntry.merge = s.merge := rfl
@[simp] theorem State.takeEntry_agent : s.takeEntry.agent = { s.agent with inbox := s.agent.inbox.tail, outbox := s.agent.outbox ++ [.reserved] } := rfl
@[simp] theorem State.takeEntry_counters : s.takeEntry.counters = s.counters := rfl
@[simp] theorem State.takeEntry_reports : s.takeEntry.reports = s.reports := rfl

/-! ### `State.placeResponse` -/

@[simp] theorem State.placeResponse_pending (r : Response) : (s.placeResponse r).pending = s.pending := rfl
@[simp] theorem State.placeResponse_draws (r : Response) : (s.placeResponse r).draws = s.draws := rfl
@[simp] theorem State.placeResponse_lineIn (r : Response) : (s.placeResponse r).lineIn = s.lineIn := rfl
@[simp] theorem State.placeResponse_classifier (r : Response) : (s.placeResponse r).classifier = s.classifier := rfl
@[simp] theorem State.placeResponse_store (r : Response) : (s.placeResponse r).store = s.store := rfl
@[simp] theorem State.placeResponse_plan (r : Response) : (s.placeResponse r).plan = s.plan := rfl
@[simp] theorem State.placeResponse_pacing (r : Response) : (s.placeResponse r).pacing = s.pacing := rfl
@[simp] theorem State.placeResponse_egress (r : Response) : (s.placeResponse r).egress = s.egress := rfl
@[simp] theorem State.placeResponse_lineOut (r : Response) : (s.placeResponse r).lineOut = s.lineOut := rfl
@[simp] theorem State.placeResponse_merge (r : Response) : (s.placeResponse r).merge = s.merge := rfl
@[simp] theorem State.placeResponse_agent (r : Response) : (s.placeResponse r).agent = { s.agent with outbox := s.agent.outbox.dropLast ++ [.ready r] } := rfl
@[simp] theorem State.placeResponse_counters (r : Response) : (s.placeResponse r).counters = s.counters := rfl
@[simp] theorem State.placeResponse_reports (r : Response) : (s.placeResponse r).reports = s.reports := rfl

/-! ### `State.freePlace` -/

@[simp] theorem State.freePlace_pending : s.freePlace.pending = s.pending := rfl
@[simp] theorem State.freePlace_draws : s.freePlace.draws = s.draws := rfl
@[simp] theorem State.freePlace_lineIn : s.freePlace.lineIn = s.lineIn := rfl
@[simp] theorem State.freePlace_classifier : s.freePlace.classifier = s.classifier := rfl
@[simp] theorem State.freePlace_store : s.freePlace.store = s.store := rfl
@[simp] theorem State.freePlace_plan : s.freePlace.plan = s.plan := rfl
@[simp] theorem State.freePlace_pacing : s.freePlace.pacing = s.pacing := rfl
@[simp] theorem State.freePlace_egress : s.freePlace.egress = s.egress := rfl
@[simp] theorem State.freePlace_lineOut : s.freePlace.lineOut = s.lineOut := rfl
@[simp] theorem State.freePlace_merge : s.freePlace.merge = s.merge := rfl
@[simp] theorem State.freePlace_agent : s.freePlace.agent = { s.agent with inbox := s.agent.inbox.filter (fun e => e.complete) } := rfl
@[simp] theorem State.freePlace_counters : s.freePlace.counters = s.counters := rfl
@[simp] theorem State.freePlace_reports : s.freePlace.reports = s.reports := rfl

/-! ### `State.completeEntry` -/

@[simp] theorem State.completeEntry_pending : s.completeEntry.pending = s.pending := rfl
@[simp] theorem State.completeEntry_draws : s.completeEntry.draws = s.draws := rfl
@[simp] theorem State.completeEntry_lineIn : s.completeEntry.lineIn = s.lineIn := rfl
@[simp] theorem State.completeEntry_classifier : s.completeEntry.classifier = s.classifier := rfl
@[simp] theorem State.completeEntry_store : s.completeEntry.store = s.store := rfl
@[simp] theorem State.completeEntry_plan : s.completeEntry.plan = s.plan := rfl
@[simp] theorem State.completeEntry_pacing : s.completeEntry.pacing = s.pacing := rfl
@[simp] theorem State.completeEntry_egress : s.completeEntry.egress = s.egress := rfl
@[simp] theorem State.completeEntry_lineOut : s.completeEntry.lineOut = s.lineOut := rfl
@[simp] theorem State.completeEntry_merge : s.completeEntry.merge = s.merge := rfl
@[simp] theorem State.completeEntry_agent : s.completeEntry.agent = { s.agent with inbox := s.agent.inbox.map (fun e => { e with complete := true }) } := rfl
@[simp] theorem State.completeEntry_counters : s.completeEntry.counters = s.counters := rfl
@[simp] theorem State.completeEntry_reports : s.completeEntry.reports = s.reports := rfl

/-! ### `State.forgetPlace` -/

@[simp] theorem State.forgetPlace_pending : s.forgetPlace.pending = s.pending := rfl
@[simp] theorem State.forgetPlace_draws : s.forgetPlace.draws = s.draws := rfl
@[simp] theorem State.forgetPlace_lineIn : s.forgetPlace.lineIn = s.lineIn := rfl
@[simp] theorem State.forgetPlace_classifier : s.forgetPlace.classifier = s.classifier.map (fun c => { c with inboxPlace := false }) := rfl
@[simp] theorem State.forgetPlace_store : s.forgetPlace.store = s.store := rfl
@[simp] theorem State.forgetPlace_plan : s.forgetPlace.plan = s.plan := rfl
@[simp] theorem State.forgetPlace_pacing : s.forgetPlace.pacing = s.pacing := rfl
@[simp] theorem State.forgetPlace_egress : s.forgetPlace.egress = s.egress := rfl
@[simp] theorem State.forgetPlace_lineOut : s.forgetPlace.lineOut = s.lineOut := rfl
@[simp] theorem State.forgetPlace_merge : s.forgetPlace.merge = s.merge := rfl
@[simp] theorem State.forgetPlace_agent : s.forgetPlace.agent = s.agent := rfl
@[simp] theorem State.forgetPlace_counters : s.forgetPlace.counters = s.counters := rfl
@[simp] theorem State.forgetPlace_reports : s.forgetPlace.reports = s.reports := rfl

/-! ### `State.dropRecord` -/

@[simp] theorem State.dropRecord_pending : s.dropRecord.pending = s.pending := rfl
@[simp] theorem State.dropRecord_draws : s.dropRecord.draws = s.draws := rfl
@[simp] theorem State.dropRecord_lineIn : s.dropRecord.lineIn = { s.lineIn with record := none } := rfl
@[simp] theorem State.dropRecord_classifier : s.dropRecord.classifier = s.classifier := rfl
@[simp] theorem State.dropRecord_store : s.dropRecord.store = s.store.returnChain s.lineIn.chain := rfl
@[simp] theorem State.dropRecord_plan : s.dropRecord.plan = s.plan := rfl
@[simp] theorem State.dropRecord_pacing : s.dropRecord.pacing = s.pacing := rfl
@[simp] theorem State.dropRecord_egress : s.dropRecord.egress = s.egress := rfl
@[simp] theorem State.dropRecord_lineOut : s.dropRecord.lineOut = s.lineOut := rfl
@[simp] theorem State.dropRecord_merge : s.dropRecord.merge = s.merge := rfl
@[simp] theorem State.dropRecord_agent : s.dropRecord.agent = s.agent := rfl
@[simp] theorem State.dropRecord_counters : s.dropRecord.counters = s.counters := rfl
@[simp] theorem State.dropRecord_reports : s.dropRecord.reports = s.reports := rfl

/-! ### `State.countTick` -/

@[simp] theorem State.countTick_pending : s.countTick.pending = s.pending := rfl
@[simp] theorem State.countTick_draws : s.countTick.draws = s.draws := rfl
@[simp] theorem State.countTick_lineIn : s.countTick.lineIn = s.lineIn := rfl
@[simp] theorem State.countTick_classifier : s.countTick.classifier = s.classifier := rfl
@[simp] theorem State.countTick_store : s.countTick.store = s.store := rfl
@[simp] theorem State.countTick_plan : s.countTick.plan = s.plan := rfl
@[simp] theorem State.countTick_pacing : s.countTick.pacing = { s.pacing with tickCounter := s.pacing.tickCounter + 1, period := s.settings.tickPeriod } := rfl
@[simp] theorem State.countTick_egress : s.countTick.egress = s.egress := rfl
@[simp] theorem State.countTick_lineOut : s.countTick.lineOut = s.lineOut := rfl
@[simp] theorem State.countTick_merge : s.countTick.merge = s.merge := rfl
@[simp] theorem State.countTick_agent : s.countTick.agent = s.agent := rfl
@[simp] theorem State.countTick_counters : s.countTick.counters = s.counters := rfl
@[simp] theorem State.countTick_reports : s.countTick.reports = s.reports := rfl

/-! ### `State.clearContexts` -/

@[simp] theorem State.clearContexts_pending (w : Flow → Bool) : (s.clearContexts w).pending = s.pending := by
  rw [State.clearContexts]
@[simp] theorem State.clearContexts_draws (w : Flow → Bool) : (s.clearContexts w).draws = s.draws := by
  rw [State.clearContexts]
@[simp] theorem State.clearContexts_lineIn (w : Flow → Bool) : (s.clearContexts w).lineIn = s.lineIn := by
  rw [State.clearContexts]
@[simp] theorem State.clearContexts_classifier (w : Flow → Bool) : (s.clearContexts w).classifier = s.classifier := by
  rw [State.clearContexts]
@[simp] theorem State.clearContexts_store (w : Flow → Bool) : (s.clearContexts w).store = s.store := by
  rw [State.clearContexts]
@[simp] theorem State.clearContexts_plan (w : Flow → Bool) : (s.clearContexts w).plan = s.plan := by
  rw [State.clearContexts]
@[simp] theorem State.clearContexts_pacing (w : Flow → Bool) : (s.clearContexts w).pacing = { s.pacing with contexts := Vector.ofFn (fun f : Flow => if w f then none else s.pacing.contexts[f]) } := by
  rw [State.clearContexts]
@[simp] theorem State.clearContexts_egress (w : Flow → Bool) : (s.clearContexts w).egress = s.egress := by
  rw [State.clearContexts]
@[simp] theorem State.clearContexts_lineOut (w : Flow → Bool) : (s.clearContexts w).lineOut = s.lineOut := by
  rw [State.clearContexts]
@[simp] theorem State.clearContexts_merge (w : Flow → Bool) : (s.clearContexts w).merge = s.merge := by
  rw [State.clearContexts]
@[simp] theorem State.clearContexts_agent (w : Flow → Bool) : (s.clearContexts w).agent = s.agent := by
  rw [State.clearContexts]
@[simp] theorem State.clearContexts_counters (w : Flow → Bool) : (s.clearContexts w).counters = s.counters := by
  rw [State.clearContexts]
@[simp] theorem State.clearContexts_reports (w : Flow → Bool) : (s.clearContexts w).reports = s.reports := by
  rw [State.clearContexts]

/-! ### `State.decisionEvent` -/

@[simp] theorem State.decisionEvent_pending : s.decisionEvent.pending = s.pending := rfl
@[simp] theorem State.decisionEvent_draws : s.decisionEvent.draws = s.draws := rfl
@[simp] theorem State.decisionEvent_lineIn : s.decisionEvent.lineIn = s.lineIn := rfl
@[simp] theorem State.decisionEvent_classifier : s.decisionEvent.classifier = s.classifier := rfl
@[simp] theorem State.decisionEvent_store : s.decisionEvent.store = s.store := rfl
@[simp] theorem State.decisionEvent_plan : s.decisionEvent.plan = s.plan := rfl
@[simp] theorem State.decisionEvent_pacing : s.decisionEvent.pacing = s.pacing := rfl
@[simp] theorem State.decisionEvent_egress : s.decisionEvent.egress = (s.egress.atDecision s.store s.lineOut).egress := rfl
@[simp] theorem State.decisionEvent_lineOut : s.decisionEvent.lineOut = s.lineOut := rfl
@[simp] theorem State.decisionEvent_merge : s.decisionEvent.merge = s.merge := rfl
@[simp] theorem State.decisionEvent_agent : s.decisionEvent.agent = s.agent := rfl
@[simp] theorem State.decisionEvent_counters : s.decisionEvent.counters = s.counters.addSome (s.egress.atDecision s.store s.lineOut).counted := rfl
@[simp] theorem State.decisionEvent_reports : s.decisionEvent.reports = s.reports := rfl

end Sys2Proof.Machine
end

