-- ==== Sys2Proof/Laws/Agent.lean ====
section
/-! SUPPORT. The Management Agent: what the beginning of a command can do, in the terms of Safety. -/

namespace Sys2Proof.Machine

open Sys2Proof

/-- The agent's test of R134 answers an entry exactly when it may begin that entry. -/
theorem ManagementAgent.readyEntry_eq_some (s : State) (e : InboxEntry) : s.agent.readyEntry = some e ↔ s.MayBegin e := by
  unfold ManagementAgent.readyEntry
  cases h : s.agent.inbox with
  | nil => exact ⟨fun hh => by simp at hh, fun hh => by simpa [h] using hh.head⟩
  | cons x rest =>
    simp only [Bool.and_eq_true, beq_iff_eq, decide_eq_true_eq]
    constructor
    · intro hh
      split at hh
      · rename_i hc
        cases hh
        exact ⟨by simp [h], hc.1.1, hc.1.2, hc.2⟩
      · simp at hh
    · intro hh
      have hx : x = e := by simpa [h] using hh.head
      subst hx
      rw [if_pos ⟨⟨hh.complete, hh.free⟩, hh.room⟩]

/-- With no entry to begin there is no event (R134). -/
theorem State.beginCommand_none (s : State) (mine : InboxEntry → Bool) (lengths : List Nat) (run : InboxEntry → State → Reply)
    (h : ∀ e, s.MayBegin e → mine e = false) : s.beginCommand mine lengths run = s := by
  unfold State.beginCommand
  cases hr : s.agent.readyEntry with
  | none => rfl
  | some e => simp [h e ((ManagementAgent.readyEntry_eq_some s e).1 hr)]

/-- An entry of this row that may begin is handled. -/
theorem State.beginCommand_mine (s : State) (mine : InboxEntry → Bool) (lengths : List Nat) (run : InboxEntry → State → Reply)
    (e : InboxEntry) (h : s.MayBegin e) (hm : mine e = true) : s.beginCommand mine lengths run = s.handle lengths run e := by
  simp [State.beginCommand, (ManagementAgent.readyEntry_eq_some s e).2 h, hm]

/-- The entry is a command of the code exactly when its Kind and its code say so. -/
theorem InboxEntry.isCommand_iff (code : Byte) (e : InboxEntry) : e.isCommand code = true ↔ e.kind = 0x01#8 ∧ e.code = code := by
  simp [InboxEntry.isCommand]

/-- The entry is of no row of the catalogue exactly when its Kind is not Command or its code is outside 0x01 to 0x14. -/
theorem InboxEntry.isUnknown_iff (e : InboxEntry) :
    e.isUnknown = true ↔ e.kind ≠ 0x01#8 ∨ e.code = 0 ∨ 0x14 < e.code.toNat := by
  simp only [InboxEntry.isUnknown, Bool.or_eq_true, bne_iff_ne, Bool.not_eq_true', Bool.and_eq_false_iff, decide_eq_false_iff_not]
  have : e.code = 0 ↔ e.code.toNat = 0 := ⟨fun h => by simp [h], fun h => BitVec.eq_of_toNat_eq (by simpa using h)⟩
  rw [this]
  have h2 : ¬ (e.code.toNat ≤ 0x14) ↔ 0x14 < e.code.toNat := by omega
  have h3 : ¬ (1 ≤ e.code.toNat) ↔ e.code.toNat = 0 := by omega
  simp only [h2, h3]

/-- A new entry has no stored response. -/
theorem ManagementAgent.stored_fresh (s : State) (e : InboxEntry) (h : s.Fresh e) : s.agent.stored e = none := by
  unfold ManagementAgent.stored
  cases hl : s.agent.last with
  | none => rfl
  | some l =>
    have := h l hl
    simp only [Bool.and_eq_true, decide_eq_true_eq]
    rw [if_neg this]

/-- A repeat has the stored response (R138). -/
theorem ManagementAgent.stored_repeat (a : ManagementAgent) (e : InboxEntry) (l : LastTransaction) (hl : a.last = some l)
    (ht : l.transaction = e.transaction) (hc : l.code = e.code) : a.stored e = some l.response := by
  simp [ManagementAgent.stored, hl, ht, hc]

/-- A new command whose owning block answers (R136): the block's part after it, and the response in the reserved place and in the
record. -/
theorem State.beginCommand_answered (s t : State) (code : Byte) (lengths : List Nat) (run : InboxEntry → State → Reply)
    (e : InboxEntry) (st : Status) (results : List Byte) (h : s.Begins code lengths e)
    (hr : run e s.takeEntry = { state := t, answer := some (st, results) }) :
    s.beginCommand (InboxEntry.isCommand code) lengths run =
      t.respond s.settings.responseLabel e.transaction e.code st results := by
  rw [State.beginCommand_mine s _ lengths run e h.mayBegin ((InboxEntry.isCommand_iff code e).2 ⟨h.isCommand, h.isCode⟩)]
  simp [State.handle, ManagementAgent.stored_fresh s e h.fresh, h.hasLength, hr]

/-- A new command whose owning block gives no answer yet (R147). -/
theorem State.beginCommand_unanswered (s t : State) (code : Byte) (lengths : List Nat) (run : InboxEntry → State → Reply)
    (e : InboxEntry) (h : s.Begins code lengths e) (hr : run e s.takeEntry = { state := t, answer := none }) :
    s.beginCommand (InboxEntry.isCommand code) lengths run = t := by
  rw [State.beginCommand_mine s _ lengths run e h.mayBegin ((InboxEntry.isCommand_iff code e).2 ⟨h.isCommand, h.isCode⟩)]
  simp [State.handle, ManagementAgent.stored_fresh s e h.fresh, h.hasLength, hr]

/-- The response goes into the place reserved at the tail of the Outbox (R135). -/
theorem State.respond_reserved (t : State) (before : List OutboxEntry) (label transaction : Word16) (code : Byte) (st : Status)
    (results : List Byte) (h : t.agent.outbox = before ++ [.reserved]) :
    t.respond label transaction code st results =
      { t with agent := { t.agent with
          outbox := before ++ [.ready { label := label, transaction := transaction, code := code, status := st, repeated := false,
                                        results := results }],
          last := some { transaction := transaction, code := code,
                         response := { label := label, transaction := transaction, code := code, status := st,
                                       repeated := false, results := results } } } } := by
  simp [State.respond, State.placeResponse, h]

/-- A command that changed nothing else, answered (R136). -/
theorem State.takeEntry_respond (s : State) (label : Word16) (e : InboxEntry) (st : Status) (results : List Byte) :
    s.takeEntry.respond label e.transaction e.code st results = s.answered label e st results := by
  rw [State.respond_reserved s.takeEntry s.agent.outbox label e.transaction e.code st results rfl]
  rfl

end Sys2Proof.Machine
end

