-- ==== Sys2Proof/Laws/Counts.lean ====
section
/-! SUPPORT. The Counter Bank and the Report Queue: what an increment and a posting can do. -/

namespace Sys2Proof.Machine

open Sys2Proof

/-! ## Counters -/

theorem GlobalCounter.index_injective (a b : GlobalCounter) (h : a.index = b.index) : a = b := by
  revert h; cases a <;> cases b <;> decide

theorem FlowCounter.index_injective (a b : FlowCounter) (h : a.index = b.index) : a = b := by
  revert h; cases a <;> cases b <;> decide

/-- One increment: up by 1, or kept at 4294967295 (R164). -/
theorem satInc_toNat (c : Word32) : (satInc c).toNat = min (c.toNat + 1) 4294967295 := by
  unfold satInc
  split
  · subst_vars; rfl
  · rename_i h
    have h1 : c.toNat ≠ 4294967295 := fun hh => h (BitVec.eq_of_toNat_eq (by simpa using hh))
    have h2 := c.isLt
    rw [BitVec.toNat_add]
    simp
    omega

/-- `n` increments. -/
theorem satAdd_toNat (n : Nat) : ∀ c : Word32, (satAdd n c).toNat = min (c.toNat + n) 4294967295 := by
  induction n with
  | zero => intro c; have := c.isLt; simp only [satAdd]; omega
  | succ n ih => intro c; simp only [satAdd, ih, satInc_toNat]; omega

/-- Increments made one after another add up. -/
theorem satAdd_satAdd (m n : Nat) (c : Word32) : satAdd m (satAdd n c) = satAdd (n + m) c := by
  apply BitVec.eq_of_toNat_eq; simp only [satAdd_toNat]; omega

/-- A global counter after increments of one. -/
theorem CounterBank.read_add (b : CounterBank) (c k : GlobalCounter) (n : Nat) :
    (b.add c n).read k = if k = c then satAdd n (b.read c) else b.read k := by
  simp only [CounterBank.add, CounterBank.read]
  by_cases h : k = c
  · subst h; simp
  · have : c.index ≠ k.index := fun hh => h (GlobalCounter.index_injective _ _ hh).symm
    have h2 : c.index.val ≠ k.index.val := fun hh => this (Fin.ext hh)
    simp only [h, if_false, Fin.getElem_fin]
    rw [Vector.getElem_set_ne _ _ h2]

@[simp] theorem CounterBank.readFlow_add (b : CounterBank) (c : GlobalCounter) (n : Nat) (f : Flow) (k : FlowCounter) :
    (b.add c n).readFlow f k = b.readFlow f k := rfl

@[simp] theorem CounterBank.read_addFlow (b : CounterBank) (f : Flow) (c : FlowCounter) (n : Nat) (k : GlobalCounter) :
    (b.addFlow f c n).read k = b.read k := rfl

/-- The flows of the bank after increments of one flow's counter. -/
theorem CounterBank.addFlow_flows (b : CounterBank) (f g : Flow) (c : FlowCounter) (n : Nat) :
    (b.addFlow f c n).flows[g] = if g = f then b.flows[f].set c.index (satAdd n b.flows[f][c.index]) else b.flows[g] := by
  simp only [CounterBank.addFlow]
  by_cases h : g = f
  · subst h; simp
  · have h2 : f.val ≠ g.val := fun hh => h (Fin.ext hh.symm)
    simp [h, Vector.getElem_set_ne _ _ h2]

/-- A flow's counter after increments of one. -/
theorem CounterBank.readFlow_addFlow (b : CounterBank) (f g : Flow) (c k : FlowCounter) (n : Nat) :
    (b.addFlow f c n).readFlow g k = if g = f ∧ k = c then satAdd n (b.readFlow f c) else b.readFlow g k := by
  simp only [CounterBank.readFlow, CounterBank.addFlow_flows]
  by_cases h : g = f
  · subst h
    by_cases hk : k = c
    · subst hk; simp
    · have h2 : c.index.val ≠ k.index.val := fun hh => hk (FlowCounter.index_injective _ _ (Fin.ext hh)).symm
      simp [hk, Vector.getElem_set_ne _ _ h2]
  · simp [h]

/-! ## Reports (R169, R170) -/

/-- A record of a kind is pending exactly when one stands in the queue. -/
theorem hasReport_iff (q : List ReportRecord) (k : ReportKind) : hasReport q k = true ↔ ∃ r ∈ q, r.kind = k := by
  simp [hasReport]

@[simp] theorem ReportRecord.gather_kind (r : ReportRecord) (tick : Word32) : (r.gather tick).kind = r.kind := rfl

/-- A posting of a kind not yet pending opens a record at the tail. -/
theorem postInto_open (q : List ReportRecord) (d : Detail) (tick : Word32) (h : ∀ r ∈ q, r.kind ≠ d.kind) :
    postInto q d tick = q ++ [{ first := d, occurrences := 1, latestTick := tick }] := by
  have : hasReport q d.kind = false := by
    rw [Bool.eq_false_iff, ne_eq, hasReport_iff]
    rintro ⟨r, hr, hk⟩
    exact h r hr hk
  simp [postInto, this]

/-- A posting of a pending kind is gathered into the record of that kind, in its place. -/
theorem postInto_gather (before : List ReportRecord) (r : ReportRecord) (after : List ReportRecord) (d : Detail) (tick : Word32)
    (hk : r.kind = d.kind) (h : ∀ x ∈ before ++ after, x.kind ≠ d.kind) :
    postInto (before ++ r :: after) d tick = before ++ r.gather tick :: after := by
  have hr : hasReport (before ++ r :: after) d.kind = true := by
    rw [hasReport_iff]; exact ⟨r, by simp, hk⟩
  have same : ∀ l : List ReportRecord, (∀ x ∈ l, x.kind ≠ d.kind) →
      l.map (fun x => if x.kind == d.kind then x.gather tick else x) = l := by
    intro l hl
    conv_rhs => rw [← List.map_id l]
    apply List.map_congr_left
    intro x hx
    simp [hl x hx]
  simp only [postInto, hr, if_true, List.map_append, List.map_cons, hk, beq_self_eq_true]
  rw [same before (fun x hx => h x (by simp [hx])), same after (fun x hx => h x (by simp [hx]))]

/-- The kinds pending after a posting: those before it, and at the tail a new one. -/
theorem postInto_kinds (q : List ReportRecord) (d : Detail) (tick : Word32) :
    (postInto q d tick).map ReportRecord.kind =
      q.map ReportRecord.kind ++ if hasReport q d.kind then [] else [d.kind] := by
  unfold postInto
  split
  · simp only [List.map_map, List.append_nil]
    apply List.map_congr_left
    intro r _
    simp only [Function.comp_apply]
    split <;> rfl
  · simp [ReportRecord.kind]

/-- A posting keeps the law of the Report Queue (R169). -/
theorem postInto_law (q : List ReportRecord) (d : Detail) (tick : Word32) (hn : (q.map ReportRecord.kind).Nodup)
    (ho : ∀ r ∈ q, 1 ≤ r.occurrences ∧ r.occurrences ≤ 65535) :
    ((postInto q d tick).map ReportRecord.kind).Nodup ∧
      ∀ r ∈ postInto q d tick, 1 ≤ r.occurrences ∧ r.occurrences ≤ 65535 := by
  constructor
  · rw [postInto_kinds]
    split
    · simpa using hn
    · rename_i h
      rw [List.nodup_append]
      refine ⟨hn, by simp, ?_⟩
      intro a ha b hb hab
      rw [hasReport_iff] at h
      rw [List.mem_singleton] at hb
      obtain ⟨r, hr, hk⟩ := List.mem_map.1 ha
      exact h ⟨r, hr, by rw [hk, hab, hb]⟩
  · intro r hr
    unfold postInto at hr
    split at hr
    · obtain ⟨x, hx, he⟩ := List.mem_map.1 hr
      have := ho x hx
      split at he
      · subst he
        simp only [ReportRecord.gather]
        split <;> omega
      · subst he; exact this
    · rcases List.mem_append.1 hr with hr | hr
      · exact ho r hr
      · rw [List.mem_singleton] at hr; subst hr; simp

end Sys2Proof.Machine
end

