-- ==== Sys2Proof/Laws/Plan.lean ====
section
/-! SUPPORT. The Label Maps, the banks and the sets of levels: lookups, insertions and removals by place, and the most urgent level with
a property. -/

namespace Sys2Proof.Machine

open Sys2Proof

/-! ## Label Maps (R109) -/

/-- A label that no entry holds is not found. -/
theorem mapLookup_none (m : List MapEntry) (l : Word16) : mapLookup m l = none ↔ ∀ e ∈ m, e.label ≠ l := by
  induction m with
  | nil => simp [mapLookup]
  | cons e r ih => simp only [mapLookup]; split <;> simp_all

/-- In an ordered map an entry is found by its label. -/
theorem mapLookup_mem (m : List MapEntry) (l : Word16) (f : Flow) (hs : mapSorted m = true)
    (h : MapEntry.mk l f ∈ m) : mapLookup m l = some f := by
  simp only [mapSorted, decide_eq_true_eq] at hs
  induction m with
  | nil => simp at h
  | cons e r ih =>
    obtain ⟨h1, h2⟩ := List.pairwise_cons.1 hs
    simp only [mapLookup]
    rcases List.mem_cons.1 h with h | h
    · subst h; simp
    · have h3 := h1 _ h
      have : e.label ≠ l := by intro hh; subst hh; simp at h3
      simp only [this, if_false]
      exact ih h h2

/-- The new Management Label is held by a map exactly when one of its entries has it. -/
theorem mapLookup_isSome (m : List MapEntry) (l : Word16) : (mapLookup m l).isSome = true ↔ ∃ e ∈ m, e.label = l := by
  cases h : mapLookup m l with
  | none => simpa using (mapLookup_none m l).1 h
  | some f =>
    have : ¬ ∀ e ∈ m, e.label ≠ l := fun hh => by simp [(mapLookup_none m l).2 hh] at h
    push Not at this
    simpa using this

/-- A held label's flow is replaced in its place (R114). -/
theorem mapInsert_replace (before after : List MapEntry) (l : Word16) (old f : Flow)
    (hs : mapSorted (before ++ { label := l, flow := old } :: after) = true) :
    mapInsert (before ++ { label := l, flow := old } :: after) l f = before ++ { label := l, flow := f } :: after := by
  simp only [mapSorted, decide_eq_true_eq] at hs
  induction before with
  | nil => simp [mapInsert]
  | cons e r ih =>
    obtain ⟨h1, h2⟩ := List.pairwise_cons.1 hs
    have h3 := h1 { label := l, flow := old } (by simp)
    simp only at h3
    have : l ≠ e.label := by intro hh; subst hh; omega
    simp only [List.cons_append, mapInsert, this, if_false]
    rw [if_neg (by omega), ih h2]

/-- A new entry joins at the place its label gives (R109, R114). -/
theorem mapInsert_new (before after : List MapEntry) (l : Word16) (f : Flow) (hb : ∀ x ∈ before, x.label.toNat < l.toNat)
    (ha : ∀ x ∈ after, l.toNat < x.label.toNat) :
    mapInsert (before ++ after) l f = before ++ { label := l, flow := f } :: after := by
  induction before with
  | nil =>
    cases after with
    | nil => simp [mapInsert]
    | cons e r => simp [mapInsert, ha e (by simp)]
  | cons e r ih =>
    have h := hb e (by simp)
    have : l ≠ e.label := by intro hh; subst hh; omega
    simp only [List.cons_append, mapInsert, this, if_false]
    rw [if_neg (by omega), ih (fun x hx => hb x (by simp [hx]))]

/-- An insertion changes the length by nothing or by one. -/
theorem mapInsert_length (m : List MapEntry) (l : Word16) (f : Flow) :
    (mapInsert m l f).length = m.length ∨ (mapInsert m l f).length = m.length + 1 := by
  induction m with
  | nil => simp [mapInsert]
  | cons e r ih => simp only [mapInsert]; split <;> [simp; split] <;> simp; omega

/-- Every entry of a map after an insertion is the new one or stood there. -/
theorem mem_mapInsert (m : List MapEntry) (l : Word16) (f : Flow) :
    ∀ x ∈ mapInsert m l f, x = { label := l, flow := f } ∨ x ∈ m := by
  induction m with
  | nil => intro x h; simpa [mapInsert] using h
  | cons e r ih =>
    intro x h
    simp only [mapInsert] at h
    split at h
    · simpa using h
    · split at h
      · rcases List.mem_cons.1 h with h | h
        · exact .inl h
        · exact .inr (List.mem_cons_of_mem _ h)
      · rcases List.mem_cons.1 h with h | h
        · exact .inr (h ▸ List.mem_cons_self)
        · exact (ih x h).imp id (List.mem_cons_of_mem _)

/-- An insertion keeps the ascending order (R109). -/
theorem mapSorted_mapInsert (m : List MapEntry) (l : Word16) (f : Flow) (h : mapSorted m = true) :
    mapSorted (mapInsert m l f) = true := by
  simp only [mapSorted, decide_eq_true_eq] at h ⊢
  induction m with
  | nil => simp [mapInsert]
  | cons e r ih =>
    obtain ⟨h1, h2⟩ := List.pairwise_cons.1 h
    simp only [mapInsert]
    split
    · rename_i hl
      refine List.pairwise_cons.2 ⟨?_, h⟩
      intro x hx
      rcases List.mem_cons.1 hx with hx | hx
      · subst hx; exact hl
      · exact Nat.lt_trans hl (h1 x hx)
    · split
      · rename_i hl
        subst hl
        exact List.pairwise_cons.2 ⟨h1, h2⟩
      · rename_i hl hne
        refine List.pairwise_cons.2 ⟨?_, ih h2⟩
        intro x hx
        rcases mem_mapInsert r l f x hx with hx | hx
        · subst hx
          have : l.toNat ≠ e.label.toNat := fun hh => hne (BitVec.eq_of_toNat_eq hh)
          simp only
          omega
        · exact h1 x hx

/-- A removal leaves the entries of the other labels in their order (R115). -/
theorem mapRemove_split (before after : List MapEntry) (l : Word16) (f : Flow)
    (hs : mapSorted (before ++ { label := l, flow := f } :: after) = true) :
    mapRemove (before ++ { label := l, flow := f } :: after) l = before ++ after := by
  simp only [mapSorted, decide_eq_true_eq, List.pairwise_append, List.pairwise_cons] at hs
  obtain ⟨-, ⟨ha, -⟩, hb⟩ := hs
  have hb' : ∀ x ∈ before, x.label ≠ l := by
    intro x hx hh
    have := hb x hx { label := l, flow := f } (by simp)
    simp [hh] at this
  have ha' : ∀ x ∈ after, x.label ≠ l := by
    intro x hx hh
    have := ha x hx
    simp [hh] at this
  simp only [mapRemove, List.filter_append, List.filter_cons, bne_self_eq_false]
  rw [List.filter_eq_self.2 (fun x hx => by simpa using hb' x hx), List.filter_eq_self.2 (fun x hx => by simpa using ha' x hx)]
  simp

/-- A removal keeps the ascending order (R109). -/
theorem mapSorted_mapRemove (m : List MapEntry) (l : Word16) (h : mapSorted m = true) : mapSorted (mapRemove m l) = true := by
  simp only [mapSorted, decide_eq_true_eq] at h ⊢
  exact h.filter _

/-! ## Banks (R108) -/

@[simp] theorem Bank.other_other (b : Bank) : b.other.other = b := by cases b <;> rfl

theorem Bank.other_ne (b : Bank) : b.other ≠ b := by cases b <;> decide

theorem Bank.eq_other_of_ne (a b : Bank) (h : a ≠ b) : a = b.other := by revert h; cases a <;> cases b <;> decide

@[simp] theorem PlanStore.bank_setBank_self (p : PlanStore) (b : Bank) (c : BankContents) : (p.setBank b c).bank b = c := by
  cases b <;> rfl

theorem PlanStore.bank_setBank_ne (p : PlanStore) (a b : Bank) (c : BankContents) (h : a ≠ b) : (p.setBank b c).bank a = p.bank a := by
  cases a <;> cases b <;> first | rfl | exact absurd rfl h

@[simp] theorem PlanStore.setBank_active (p : PlanStore) (b : Bank) (c : BankContents) : (p.setBank b c).active = p.active := by
  cases b <;> rfl

@[simp] theorem PlanStore.setBank_job (p : PlanStore) (b : Bank) (c : BankContents) : (p.setBank b c).job = p.job := by
  cases b <;> rfl

@[simp] theorem PlanStore.setBank_same (p : PlanStore) (b : Bank) : p.setBank b (p.bank b) = p := by cases b <;> rfl

@[simp] theorem PlanStore.setBank_setBank (p : PlanStore) (b : Bank) (c d : BankContents) :
    (p.setBank b c).setBank b d = p.setBank b d := by cases b <;> rfl

/-- A byte names a bank exactly when it is the bank's byte (10_formats section 10.2). -/
theorem bankOf_eq_some (x : Byte) (b : Bank) : bankOf x = some b ↔ x = b.byte := by
  unfold bankOf
  cases b <;> split <;> simp_all [Bank.byte]

theorem bankOf_eq_none (x : Byte) : bankOf x = none ↔ ∀ b : Bank, x ≠ b.byte := by
  unfold bankOf
  constructor
  · intro h b
    split at h <;> [simp at h; split at h] <;> simp at h
    cases b <;> simpa [Bank.byte]
  · intro h
    have ha := h .bankA
    have hb := h .bankB
    simp only [Bank.byte] at ha hb
    rw [if_neg ha, if_neg hb]

/-! ## Sets of levels -/

theorem held_setLevel (m : BitVec 4) (l k : Level) : held (setLevel m l) k = (held m k || k == l) := by
  revert m l k; decide

theorem held_clearLevel (m : BitVec 4) (l k : Level) : held (clearLevel m l) k = (held m k && k != l) := by
  revert m l k; decide

@[simp] theorem held_zero (l : Level) : held 0#4 l = false := by revert l; decide

/-- The first of the four levels with a property is the numerically lowest. -/
theorem allLevels_find_some (p : Level → Bool) (l : Level) (h : p l = true) (hk : ∀ k, k < l → p k = false) :
    allLevels.find? p = some l := by
  have split4 : allLevels.find? p =
      if p 0 then some 0 else if p 1 then some 1 else if p 2 then some 2 else if p 3 then some 3 else none := by
    simp only [allLevels, List.find?]
    repeat' split
    all_goals simp_all
  rw [split4]
  match l with
  | 0 => simp [h]
  | 1 => simp [h, hk 0 (by decide)]
  | 2 => simp [h, hk 0 (by decide), hk 1 (by decide)]
  | 3 => simp [h, hk 0 (by decide), hk 1 (by decide), hk 2 (by decide)]

theorem allLevels_find_none (p : Level → Bool) (hk : ∀ k, p k = false) : allLevels.find? p = none := by simp [hk]

/-- Every level is in the list of levels. -/
theorem mem_allLevels (l : Level) : l ∈ allLevels := by revert l; decide

/-- The Abort sent first is that of the numerically lowest pending stream (R12). -/
theorem lowestStream_some (m : BitVec 4) (l : Level) (h : held m l = true) (hk : ∀ k, k < l → held m k = false) :
    lowestStream m = some l :=
  allLevels_find_some _ l h hk

@[simp] theorem lowestStream_zero : lowestStream 0#4 = none := by decide

/-- A valid record is the record of the descriptor it stands for (R110, R118). -/
theorem DescriptorRecord.toDescriptor_record (r : DescriptorRecord) (h : r.badField = none) : r.toDescriptor.record = r := by
  unfold DescriptorRecord.badField at h
  repeat (split at h; · simp at h)
  rename_i c0 c1 c2 c3 c4 _ _ c9 c10
  simp [inRange] at c0 c1 c2 c3 c4 c10
  have b1 : ∀ x : Byte, x.toNat ≤ 1 → boolByte (x == 1) = x := by decide +revert
  have b2 : ∀ x : Byte, x.toNat ≤ 3 → levelByte (Fin.ofNat 4 x.toNat) = x := by decide +revert
  have b3 : ∀ x : Byte, x.toNat ≤ 4 → (pacingModeOf x).byte = x := by decide +revert
  have b4 : ∀ x : Byte, x.toNat ≤ 1 → (if x = 1 then OverflowAction.dropOldest else .dropNew).byte = x := by decide +revert
  unfold Descriptor.record DescriptorRecord.toDescriptor
  dsimp only
  rw [b1 _ c0, b2 _ c1, b1 _ c2, b1 _ c3, b3 _ c4, b4 _ c10]

end Sys2Proof.Machine
end

