-- ==== Sys2Proof/Laws/Egress.lean ====
section
/-! SUPPORT. The Egress Scheduler: all a decision event can do, as one inversion lemma per part of the choice (R11 to R16), and when it
does nothing. -/

namespace Sys2Proof.Machine

open Sys2Proof

/-! ## When there is no choice (R11, R22) -/

/-- With something in flight, or line-out Down, a decision event changes nothing. -/
theorem State.decisionEvent_busy (s : State) (h : s.egress.inFlight ≠ none ∨ s.lineOut.state = .down) : s.decisionEvent = s := by
  have : (s.egress.inFlight.isNone && s.lineOut.up) = false := by
    rcases h with h | h
    · cases hh : s.egress.inFlight <;> simp_all
    · simp [LineOutReceiver.up, h]
  simp [State.decisionEvent, EgressScheduler.atDecision, this, CounterBank.addSome]

/-- With nothing in flight and line-out Up, a decision event is the choice. -/
theorem State.decisionEvent_choice (s : State) (h : s.egress.inFlight = none) (h2 : s.lineOut.state ≠ .down) :
    s.decisionEvent = { s with egress := (s.egress.choose s.store s.lineOut.holdMask).egress,
                               counters := s.counters.addSome (s.egress.choose s.store s.lineOut.holdMask).counted } := by
  have : (s.egress.inFlight.isNone && s.lineOut.up) = true := by simp [h, LineOutReceiver.up, h2]
  simp [State.decisionEvent, EgressScheduler.atDecision, this]

/-! ## All a choice can do -/

/-- What the choice with no current frame leaves (R15, R16): the head of an unheld lane below the bound starts, or the unheld top of the
stack is resumed, or nothing changes. -/
inductive IdleChoice (e : EgressScheduler) (st : FrameStore) (mask : BitVec 4) : EgressScheduler → Prop
  | start (l : Level) (f : ReleasedFrame) (rest : List ReleasedFrame) (hl : l.val < e.bound) (hh : held mask l = false)
      (hf : e.lanes[l] = f :: rest) :
      IdleChoice e st mask { e with
        lanes := e.lanes.set l rest, dropMark := false, current := some { toReleasedFrame := f, segmentsSent := 0 },
        inFlight := some (.segment (formSegment st f 0)) }
  | resume (t : SentFrame) (rest : List SentFrame) (ht : e.stack = t :: rest) (hh : held mask t.level = false) :
      IdleChoice e st mask { e with
        stack := rest, current := some t, inFlight := some (.segment (formSegment st t.toReleasedFrame t.segmentsSent)) }
  | nothing : IdleChoice e st mask e

/-- What a choice leaves (R12 to R16). -/
inductive AnyChoice (e : EgressScheduler) (st : FrameStore) (mask : BitVec 4) : Choice → Prop
  | streamReset (hr : e.streamReset = true) :
      AnyChoice e st mask { egress := { e with streamReset := false, inFlight := some .streamReset }, counted := none }
  | abort (l : Level) (hr : e.streamReset = false) (hl : held e.pendingAborts l = true) :
      AnyChoice e st mask
        { egress := { e with pendingAborts := clearLevel e.pendingAborts l, inFlight := some (.abort l) }, counted := none }
  | idle (x : EgressScheduler) (hr : e.streamReset = false) (ha : ∀ l, held e.pendingAborts l = false) (hc : e.current = none)
      (hx : IdleChoice e st mask x) : AnyChoice e st mask { egress := x, counted := none }
  | forced (c : SentFrame) (x : EgressScheduler) (hr : e.streamReset = false) (ha : ∀ l, held e.pendingAborts l = false)
      (hc : e.current = some c) (hh : held mask c.level = true) (hx : IdleChoice (e.push c) st mask x) :
      AnyChoice e st mask { egress := x, counted := some .forcedSuspensions }
  | preempt (c : SentFrame) (l : Level) (f : ReleasedFrame) (rest : List ReleasedFrame) (hr : e.streamReset = false)
      (ha : ∀ l, held e.pendingAborts l = false) (hc : e.current = some c) (hp : c.preemptible = true) (hl : l < c.level)
      (hh : held mask l = false) (hf : e.lanes[l] = f :: rest) (hg : f.preempting = true) :
      AnyChoice e st mask { counted := some .preemptions, egress := { e with
        lanes := e.lanes.set l rest, stack := c :: e.stack, dropMark := false,
        current := some { toReleasedFrame := f, segmentsSent := 0 }, inFlight := some (.segment (formSegment st f 0)) } }
  | goOn (c : SentFrame) (hr : e.streamReset = false) (ha : ∀ l, held e.pendingAborts l = false) (hc : e.current = some c)
      (hh : held mask c.level = false) :
      AnyChoice e st mask { counted := none, egress := { e with
        inFlight := some (.segment (formSegment st c.toReleasedFrame c.segmentsSent)) } }

/-- A lane found by the search is unheld, below the bound, and has a head with the property (R14, R15). -/
theorem EgressScheduler.urgentLane_some (e : EgressScheduler) (mask : BitVec 4) (bound : Nat) (p : ReleasedFrame → Bool) (l : Level)
    (h : e.urgentLane mask bound p = some l) :
    l.val < bound ∧ held mask l = false ∧ ∃ f rest, e.lanes[l] = f :: rest ∧ p f = true := by
  have := List.find?_some h
  simp only [Bool.and_eq_true, decide_eq_true_eq, Bool.not_eq_true'] at this
  refine ⟨this.1.1, this.1.2, ?_⟩
  have h2 := this.2
  cases hf : e.lanes[l] with
  | nil => rw [hf] at h2; simp at h2
  | cons f rest => rw [hf] at h2; exact ⟨f, rest, rfl, by simpa using h2⟩

/-- A start takes the lane's head (R6). -/
theorem EgressScheduler.startLane_cons (e : EgressScheduler) (st : FrameStore) (l : Level) (f : ReleasedFrame)
    (rest : List ReleasedFrame) (hf : e.lanes[l] = f :: rest) :
    e.startLane st l = { e with
      lanes := e.lanes.set l rest, dropMark := false, current := some { toReleasedFrame := f, segmentsSent := 0 },
      inFlight := some (.segment (formSegment st f 0)) } := by
  unfold EgressScheduler.startLane
  split
  · rename_i hh; rw [hf] at hh; simp at hh
  · rename_i g r hh
    rw [hf] at hh
    cases hh
    rfl

/-- All the choice with no current frame can do. -/
theorem EgressScheduler.chooseIdle_cases (e : EgressScheduler) (st : FrameStore) (mask : BitVec 4) :
    IdleChoice e st mask (e.chooseIdle st mask) := by
  unfold EgressScheduler.chooseIdle
  split
  · rename_i l h
    obtain ⟨h1, h2, f, rest, hf, -⟩ := e.urgentLane_some mask _ _ l h
    rw [e.startLane_cons st l f rest hf]
    exact .start l f rest h1 h2 hf
  · split
    · exact .nothing
    · rename_i t rest ht
      split
      · exact .nothing
      · rename_i hh
        exact .resume t rest ht (by simpa using hh)

/-- All a choice can do. -/
theorem EgressScheduler.choose_cases (e : EgressScheduler) (st : FrameStore) (mask : BitVec 4) :
    AnyChoice e st mask (e.choose st mask) := by
  unfold EgressScheduler.choose
  split
  · exact .streamReset ‹_›
  · rename_i hr
    have hr : e.streamReset = false := by simpa using hr
    split
    · rename_i l hl
      exact .abort l hr (by simpa using List.find?_some hl)
    · rename_i hn
      have ha : ∀ l, held e.pendingAborts l = false := by
        intro l
        simpa using List.find?_eq_none.1 hn l (mem_allLevels l)
      split
      · rename_i c hc
        unfold EgressScheduler.chooseCurrent
        split
        · exact .forced c _ hr ha hc ‹_› (EgressScheduler.chooseIdle_cases _ st mask)
        · rename_i hh
          have hh : held mask c.level = false := by simpa using hh
          have same : e.send st c = { e with
              inFlight := some (.segment (formSegment st c.toReleasedFrame c.segmentsSent)) } := by
            rw [EgressScheduler.send, ← hc]
          split
          · rename_i hp
            split
            · rename_i l h
              obtain ⟨h1, h2, f, rest, hf, hg⟩ := e.urgentLane_some mask _ _ l h
              rw [(e.push c).startLane_cons st l f rest hf]
              exact .preempt c l f rest hr ha hc hp h1 h2 hf hg
            · rw [same]; exact .goOn c hr ha hc hh
          · rw [same]; exact .goOn c hr ha hc hh
      · exact .idle _ hr ha ‹_› (EgressScheduler.chooseIdle_cases e st mask)

/-! ## Insertion -/

/-- An insertion changes the scheduler and the counters only (R69). -/
theorem State.insertLanes_frame (s : State) (released : List ReleasedFrame) :
    s.insertLanes released = { s with egress := (s.insertLanes released).egress, counters := (s.insertLanes released).counters } := by
  unfold State.insertLanes
  split <;> rfl

end Sys2Proof.Machine
end

