-- ==== Sys2Proof/Laws/Reception.lean ====
section
/-! SUPPORT. The frame in reception: what a byte does to the receiver's count, header, hold-back and CRC (R92, R93). -/

namespace Sys2Proof.Machine

open Sys2Proof

/-- A byte changes the count, the hold-back, the CRC and the header of the frame in reception, and nothing else. -/
theorem LineInReceiver.take_frame (r : LineInReceiver) (b : Byte) :
    r.take b = { r with byteCount := r.byteCount + 1, holdBack := (r.take b).holdBack, crc := (r.take b).crc,
                        header := if r.header.length < 4 then r.header ++ [b] else r.header } := by
  match hh : r.holdBack with
  | [] => simp [LineInReceiver.take, hh]
  | [_] => simp [LineInReceiver.take, hh]
  | [_, _] => simp [LineInReceiver.take, hh]
  | [_, _, _] => simp [LineInReceiver.take, hh]
  | _ :: _ :: _ :: _ :: _ => simp [LineInReceiver.take, hh]

@[simp] theorem LineInReceiver.take_byteCount (r : LineInReceiver) (b : Byte) : (r.take b).byteCount = r.byteCount + 1 := by
  rw [LineInReceiver.take_frame]

@[simp] theorem LineInReceiver.take_state (r : LineInReceiver) (b : Byte) : (r.take b).state = r.state := by
  rw [LineInReceiver.take_frame]

@[simp] theorem LineInReceiver.take_bad (r : LineInReceiver) (b : Byte) : (r.take b).bad = r.bad := by
  rw [LineInReceiver.take_frame]

@[simp] theorem LineInReceiver.take_record (r : LineInReceiver) (b : Byte) : (r.take b).record = r.record := by
  rw [LineInReceiver.take_frame]

@[simp] theorem LineInReceiver.take_chain (r : LineInReceiver) (b : Byte) : (r.take b).chain = r.chain := by
  simp [LineInReceiver.chain]

theorem LineInReceiver.take_header (r : LineInReceiver) (b : Byte) :
    (r.take b).header = if r.header.length < 4 then r.header ++ [b] else r.header := by
  rw [LineInReceiver.take_frame]

/-- While fewer than four bytes are held back, a byte joins them and none leaves (R93). -/
theorem LineInReceiver.take_part (r : LineInReceiver) (b : Byte) (h : r.holdBack.length < 4) :
    (r.take b).holdBack = r.holdBack ++ [b] ∧ (r.take b).crc = r.crc := by
  match hh : r.holdBack with
  | [] => simp [LineInReceiver.take, hh]
  | [_] => simp [LineInReceiver.take, hh]
  | [_, _] => simp [LineInReceiver.take, hh]
  | [_, _, _] => simp [LineInReceiver.take, hh]
  | _ :: _ :: _ :: _ :: _ => simp [hh] at h; omega

/-- With four bytes held back, a byte joins them and the oldest goes into the CRC (R93). -/
theorem LineInReceiver.take_full (r : LineInReceiver) (o b : Byte) (rest : List Byte) (h : r.holdBack = o :: rest)
    (h3 : rest.length = 3) : (r.take b).holdBack = rest ++ [b] ∧ (r.take b).crc = crc32Byte r.crc o := by
  match rest, h3 with
  | [x, y, z], _ => simp [LineInReceiver.take, h]

/-- The byte that leaves a full hold-back is the oldest (R93). -/
theorem LineInReceiver.leaving_full (r : LineInReceiver) (o x y z : Byte) (h : r.holdBack = [o, x, y, z]) : r.leaving = some o := by
  simp [LineInReceiver.leaving, h]

/-- In Keep, a byte presents the one that leaves the hold-back (R93). -/
theorem exec_lineInByte_keep (s : State) (b o x y z : Byte) (k : Nat) (hs : s.lineIn.state = .keep)
    (hh : s.lineIn.holdBack = [o, x, y, z]) (hk : s.lineIn.byteCount = k + 4) :
    execLineInByte b s = .next ((s.setLineIn (s.lineIn.take b)).presentByte k o) := by
  simp [execLineInByte, hs, LineInReceiver.leaving_full s.lineIn o x y z hh, hk]

end Sys2Proof.Machine
end

