-- ==== Sys2Proof/Laws/Events.lean ====
section
/-! SUPPORT. What the events outside Execute Command leave alone: one frame lemma for each row or group of rows. -/

namespace Sys2Proof.Machine

open Sys2Proof

set_option Elab.async false

variable (s t : State)

/-- What the Pacing Unit's work leaves alone. -/
structure PacingOnly (s u : State) : Prop where
  pending : u.pending = s.pending
  lineIn : u.lineIn = s.lineIn
  classifier : u.classifier = s.classifier
  plan : u.plan = s.plan
  lineOut : u.lineOut = s.lineOut
  merge : u.merge = s.merge
  agent : u.agent = s.agent
  reports : u.reports = s.reports

theorem PacingOnly.trans {s t u : State} (h : PacingOnly s t) (k : PacingOnly t u) : PacingOnly s u :=
  ⟨k.1.trans h.1, k.2.trans h.2, k.3.trans h.3, k.4.trans h.4, k.5.trans h.5, k.6.trans h.6, k.7.trans h.7, k.8.trans h.8⟩

theorem PacingOnly.refl (s : State) : PacingOnly s s := ⟨rfl, rfl, rfl, rfl, rfl, rfl, rfl, rfl⟩

/-- The part after such work, with the five fields it may change. -/
theorem PacingOnly.eq {s u : State} (h : PacingOnly s u) :
    u = { s with draws := u.draws, pacing := u.pacing, egress := u.egress, store := u.store, counters := u.counters } := by
  obtain ⟨h1, h2, h3, h4, h5, h6, h7, h8⟩ := h
  cases u; cases s; simp_all

/-- A lane insertion (R3). -/
theorem State.insertLanes_only (released : List ReleasedFrame) : PacingOnly s (s.insertLanes released) := by
  unfold State.insertLanes
  split <;> exact ⟨rfl, rfl, rfl, rfl, rfl, rfl, rfl, rfl⟩

/-- An evaluation after an admission (R67). -/
theorem State.evaluateFlow_only (f : Flow) : PacingOnly s (s.evaluateFlow f) := by
  unfold State.evaluateFlow
  dsimp only
  refine PacingOnly.trans ?_ (State.insertLanes_only _ _)
  exact ⟨rfl, rfl, rfl, rfl, rfl, rfl, rfl, rfl⟩

/-- An admission's change of the queue (R54 to R56). -/
theorem State.admitFrame_only (f : FrameRecord) : PacingOnly s (s.admitFrame f) := by
  unfold State.admitFrame
  dsimp only
  split
  · exact ⟨rfl, rfl, rfl, rfl, rfl, rfl, rfl, rfl⟩
  · split <;> exact ⟨rfl, rfl, rfl, rfl, rfl, rfl, rfl, rfl⟩

/-- An admission request (R53). -/
theorem State.takeRequest_only (f : FrameRecord) : PacingOnly s (s.takeRequest f) := by
  unfold State.takeRequest
  split
  · exact (s.admitFrame_only f).trans (State.evaluateFlow_only _ _)
  · exact ⟨rfl, rfl, rfl, rfl, rfl, rfl, rfl, rfl⟩

/-- The tick sweep (R70). -/
theorem State.sweep_only : PacingOnly s s.sweep := by
  unfold State.sweep
  dsimp only
  refine PacingOnly.trans ?_ (State.insertLanes_only _ _)
  exact ⟨rfl, rfl, rfl, rfl, rfl, rfl, rfl, rfl⟩

/-- A Hold symbol reaches the Line-Out Receiver, the scheduler and the counters (R30). -/
theorem frame_holdSymbol (arg) (h : exec (.holdSymbol arg) s = .next t) :
    t = { s with lineOut := t.lineOut, egress := t.egress, counters := t.counters } := by
  simp only [exec, execHoldSymbol, Host.Outcome.next.injEq] at h
  subst h
  split
  · split
    · unfold State.holdChange; split <;> rfl
    · rfl
  · rfl

/-- A report on line-out receive reaches the Line-Out Receiver, the Return Buffer and the counters (R152, R153). -/
theorem frame_returns (c : Instr)
    (hc : c = .returnStartDelimiter ∨ (∃ b, c = .returnByte b) ∨ c = .returnEndDelimiter ∨ c = .returnErrorSymbol)
    (h : exec c s = .next t) : t = { s with lineOut := t.lineOut, merge := t.merge, counters := t.counters } := by
  rcases hc with rfl | ⟨b, rfl⟩ | rfl | rfl <;>
    simp only [exec, execReturnStartDelimiter, execReturnByte, execReturnEndDelimiter, execReturnErrorSymbol, Host.Outcome.next.injEq] at h <;>
    subst h <;> split <;> (try unfold State.takePlace) <;> (try split) <;> rfl

/-- Line-out coming Up (R48). -/
theorem frame_lineOutComesUp (h : exec .lineOutComesUp s = .next t) :
    t = { s with lineOut := t.lineOut, egress := t.egress, counters := t.counters } := by
  simp only [exec, execLineOutComesUp, Host.Outcome.next.injEq] at h
  subst h
  split <;> rfl

/-- Line-out going Down (R45, R46, R155). -/
theorem frame_lineOutGoesDown (h : exec .lineOutGoesDown s = .next t) :
    t = { s with lineOut := t.lineOut, egress := t.egress, store := t.store, merge := t.merge, counters := t.counters,
                 reports := t.reports } := by
  simp only [exec, execLineOutGoesDown, Host.Outcome.next.injEq] at h
  subst h
  split
  · unfold State.loseReturn; split <;> rfl
  · rfl

/-- A segment completion (R8, R9, R26). -/
theorem frame_segmentCompletion (h : exec .segmentCompletion s = .next t) :
    t = { s with egress := t.egress, store := t.store, counters := t.counters } := by
  simp only [exec, execSegmentCompletion, Host.Outcome.next.injEq] at h
  subst h
  split
  · unfold State.completeSegment; split <;> [skip; split] <;> rfl
  · rfl

/-- A control symbol completion (R10). -/
theorem frame_controlSymbolCompletion (h : exec .controlSymbolCompletion s = .next t) :
    t = { s with egress := t.egress, counters := t.counters } := by
  simp only [exec, execControlSymbolCompletion, Host.Outcome.next.injEq] at h
  subst h
  split <;> rfl

/-- A tick expiry (R51, R70, R38). -/
theorem frame_tickExpiry (h : exec .tickExpiry s = .next t) :
    t = { s with draws := t.draws, pacing := t.pacing, egress := t.egress, store := t.store, counters := t.counters } := by
  simp only [exec, execTickExpiry, Host.Outcome.next.injEq] at h
  subst h
  have h := State.sweep_only s.countTick
  generalize s.countTick.sweep = u at h ⊢
  exact PacingOnly.eq ⟨h.1, h.2, h.3, h.4, h.5, h.6, h.7, h.8⟩

/-- A stall expiry (R39, R40). -/
theorem frame_stallTimerExpiry (l) (h : exec (.stallTimerExpiry l) s = .next t) :
    t = { s with egress := t.egress, store := t.store, counters := t.counters, reports := t.reports } := by
  simp only [exec, execStallTimerExpiry, Host.Outcome.next.injEq] at h
  subst h
  split
  · unfold State.expireTimer
    dsimp only
    split
    · rfl
    · split
      · split
        · split <;> rfl
        · rfl
      · rfl
  · rfl

/-- A phase, window or epoch end standing alone (R63, R65; log 19). -/
theorem frame_contextChange (c : Instr) (f : Flow) (hc : c = .gatePhaseChange f ∨ c = .windowBoundary f ∨ c = .epochBoundary f)
    (h : exec c s = .next t) : t = { s with pacing := { s.pacing with contexts := t.pacing.contexts } } := by
  rcases hc with rfl | rfl | rfl <;>
    simp only [exec, execGatePhaseChange, execWindowBoundary, execEpochBoundary, Host.Outcome.next.injEq] at h <;>
    subst h <;> unfold State.changeContext <;> dsimp only <;> split <;> (try split) <;> rfl

/-- An admission request (R53 to R57). -/
theorem frame_admissionRequest (h : exec .admissionRequest s = .next t) :
    t = { s with draws := t.draws, pacing := t.pacing, egress := t.egress, store := t.store, counters := t.counters } := by
  simp only [exec, execAdmissionRequest, Host.Outcome.next.injEq] at h
  subst h
  split
  · rfl
  · refine PacingOnly.eq (PacingOnly.trans ?_ (State.takeRequest_only _ _))
    exact ⟨rfl, rfl, rfl, rfl, rfl, rfl, rfl, rfl⟩

/-- A job item (R121 to R125). -/
theorem frame_jobItemCompletion (h : exec .jobItemCompletion s = .next t) :
    t = { s with plan := t.plan, reports := t.reports } := by
  simp only [exec, execJobItemCompletion, Host.Outcome.next.injEq] at h
  subst h
  split
  · split
    · unfold State.copyItem; dsimp only
      split <;> split <;> rfl
    · unfold State.checkItem; dsimp only
      split <;> split <;> (try split) <;> rfl
  · rfl

/-- Restart Traffic at the Pacing Unit (R74). -/
theorem frame_restartAtPacingUnit (h : exec .restartAtPacingUnit s = .next t) :
    t = { s with pacing := t.pacing, store := t.store, counters := t.counters, agent := t.agent } ∧
    t.agent = { s.agent with execution := t.agent.execution } := by
  simp only [exec, execRestartAtPacingUnit, Host.Outcome.next.injEq] at h
  subst h
  split <;> exact ⟨rfl, rfl⟩

/-- What Restart Traffic at the scheduler leaves alone. -/
structure EgressOnly (s u : State) : Prop where
  pending : u.pending = s.pending
  draws : u.draws = s.draws
  lineIn : u.lineIn = s.lineIn
  classifier : u.classifier = s.classifier
  plan : u.plan = s.plan
  pacing : u.pacing = s.pacing
  lineOut : u.lineOut = s.lineOut
  merge : u.merge = s.merge
  agent : u.agent = s.agent
  reports : u.reports = s.reports

theorem EgressOnly.trans {s t u : State} (h : EgressOnly s t) (k : EgressOnly t u) : EgressOnly s u :=
  ⟨k.1.trans h.1, k.2.trans h.2, k.3.trans h.3, k.4.trans h.4, k.5.trans h.5, k.6.trans h.6, k.7.trans h.7, k.8.trans h.8,
   k.9.trans h.9, k.10.trans h.10⟩

/-- Restart Traffic on the current frame (R25). -/
theorem State.restartCurrent_only : EgressOnly s s.restartCurrent := by
  unfold State.restartCurrent
  dsimp only
  split
  · exact ⟨rfl, rfl, rfl, rfl, rfl, rfl, rfl, rfl, rfl, rfl⟩
  · split <;> exact ⟨rfl, rfl, rfl, rfl, rfl, rfl, rfl, rfl, rfl, rfl⟩

/-- Restart Traffic at the scheduler (R24, R25). -/
theorem State.restartEgress_only : EgressOnly s s.restartEgress := by
  have h : EgressOnly s s.restartLanesAndStack.restartCurrent := by
    refine EgressOnly.trans ?_ (State.restartCurrent_only _)
    exact ⟨rfl, rfl, rfl, rfl, rfl, rfl, rfl, rfl, rfl, rfl⟩
  unfold State.restartEgress
  dsimp only
  split
  · exact h
  · exact ⟨h.1, h.2, h.3, h.4, h.5, h.6, h.7, h.8, h.9, h.10⟩

/-- What reception leaves alone. -/
structure ReceptionOnly (s u : State) : Prop where
  pending : u.pending = s.pending
  draws : u.draws = s.draws
  plan : u.plan = s.plan
  egress : u.egress = s.egress
  lineOut : u.lineOut = s.lineOut
  merge : u.merge = s.merge
  tickCounter : u.pacing.tickCounter = s.pacing.tickCounter
  period : u.pacing.period = s.pacing.period
  queues : u.pacing.queues = s.pacing.queues
  contexts : u.pacing.contexts = s.pacing.contexts
  outbox : u.agent.outbox = s.agent.outbox
  execution : u.agent.execution = s.agent.execution
  last : u.agent.last = s.agent.last
  settings : u.agent.settings = s.agent.settings
  station : u.agent.station = s.agent.station

theorem ReceptionOnly.trans {s t u : State} (h : ReceptionOnly s t) (k : ReceptionOnly t u) : ReceptionOnly s u :=
  ⟨k.1.trans h.1, k.2.trans h.2, k.3.trans h.3, k.4.trans h.4, k.5.trans h.5, k.6.trans h.6, k.7.trans h.7, k.8.trans h.8,
   k.9.trans h.9, k.10.trans h.10, k.11.trans h.11, k.12.trans h.12, k.13.trans h.13, k.14.trans h.14, k.15.trans h.15⟩

theorem ReceptionOnly.refl (s : State) : ReceptionOnly s s := ⟨rfl, rfl, rfl, rfl, rfl, rfl, rfl, rfl, rfl, rfl, rfl, rfl, rfl, rfl, rfl⟩

/-- A verdict (R98). -/
theorem State.applyVerdict_only (v : Verdict) : ReceptionOnly s (s.applyVerdict v) := by
  cases v <;> simp only [State.applyVerdict] <;> try exact ⟨rfl, rfl, rfl, rfl, rfl, rfl, rfl, rfl, rfl, rfl, rfl, rfl, rfl, rfl, rfl⟩
  unfold State.handOver
  split <;> exact ⟨rfl, rfl, rfl, rfl, rfl, rfl, rfl, rfl, rfl, rfl, rfl, rfl, rfl, rfl, rfl⟩

/-- A frame's end (R98). -/
theorem State.endFrame_only : ReceptionOnly s s.endFrame := by
  unfold State.endFrame
  have h := State.applyVerdict_only (s.count .lineInFrames) (s.lineIn.verdict s.classifier)
  generalize (s.count .lineInFrames).applyVerdict (s.lineIn.verdict s.classifier) = u at h
  exact ⟨h.1, h.2, h.3, h.4, h.5, h.6, h.7, h.8, h.9, h.10, h.11, h.12, h.13, h.14, h.15⟩

/-- No frame is in reception after an end (R98, R99). -/
theorem State.endFrame_state : s.endFrame.lineIn = LineInReceiver.empty .idle := rfl

/-- A classification (R94). -/
theorem State.classify_only : ReceptionOnly s s.classify := by
  simp only [State.classify, State.classifyManagement, State.classifyForward, State.classifyUnmapped]
  split
  · split <;> exact ⟨rfl, rfl, rfl, rfl, rfl, rfl, rfl, rfl, rfl, rfl, rfl, rfl, rfl, rfl, rfl⟩
  · split
    · exact ⟨rfl, rfl, rfl, rfl, rfl, rfl, rfl, rfl, rfl, rfl, rfl, rfl, rfl, rfl, rfl⟩
    · split <;> exact ⟨rfl, rfl, rfl, rfl, rfl, rfl, rfl, rfl, rfl, rfl, rfl, rfl, rfl, rfl, rfl⟩

/-- A classification keeps line-in Up (R94). -/
theorem State.classify_state : s.classify.lineIn.state ≠ .down := by
  simp only [State.classify, State.classifyManagement, State.classifyForward, State.classifyUnmapped]
  split
  · split <;> simp
  · split
    · simp
    · split <;> simp

/-- A presented byte (R93). -/
theorem State.presentByte_only (k : Nat) (b : Byte) : ReceptionOnly s (s.presentByte k b) := by
  simp only [State.presentByte, State.presentForward, State.requestBlock, State.presentManagement]
  repeat' split
  all_goals exact ⟨rfl, rfl, rfl, rfl, rfl, rfl, rfl, rfl, rfl, rfl, rfl, rfl, rfl, rfl, rfl⟩

/-- A presented byte keeps line-in Up (R93). -/
theorem State.presentByte_state (k : Nat) (b : Byte) (h : s.lineIn.state ≠ .down) : (s.presentByte k b).lineIn.state ≠ .down := by
  simp only [State.presentByte, State.presentForward, State.requestBlock, State.presentManagement, State.overrun, State.drainRecord]
  repeat' split
  all_goals first | exact h | simp [State.setLineIn]

/-- The four reports of the decoder, and the line they leave Up or Down (R92). -/
theorem frame_reception (c : Instr)
    (hc : c = .lineInStartDelimiter ∨ (∃ b, c = .lineInByte b) ∨ c = .lineInEndDelimiter ∨ c = .lineInErrorSymbol)
    (h : exec c s = .next t) : ReceptionOnly s t ∧ (t.lineIn.state = .down ↔ s.lineIn.state = .down) := by
  have bad : ReceptionOnly s (s.setLineIn { s.lineIn with bad := true }) :=
    ⟨rfl, rfl, rfl, rfl, rfl, rfl, rfl, rfl, rfl, rfl, rfl, rfl, rfl, rfl, rfl⟩
  rcases hc with rfl | ⟨b, rfl⟩ | rfl | rfl
  · simp only [exec, execLineInStartDelimiter, Host.Outcome.next.injEq] at h
    subst h
    have k := bad.trans (State.endFrame_only _)
    split
    · exact ⟨.refl s, Iff.rfl⟩
    · rename_i hs
      exact ⟨⟨rfl, rfl, rfl, rfl, rfl, rfl, rfl, rfl, rfl, rfl, rfl, rfl, rfl, rfl, rfl⟩,
        by simp [State.beginFrame, LineInReceiver.empty, hs]⟩
    all_goals
      rename_i hs
      exact ⟨⟨k.1, k.2, k.3, k.4, k.5, k.6, k.7, k.8, k.9, k.10, k.11, k.12, k.13, k.14, k.15⟩,
        by simp [State.beginFrame, LineInReceiver.empty, hs]⟩
  · simp only [exec, execLineInByte, Host.Outcome.next.injEq] at h
    subst h
    have k : ReceptionOnly s (s.setLineIn (s.lineIn.take b)) := ⟨rfl, rfl, rfl, rfl, rfl, rfl, rfl, rfl, rfl, rfl, rfl, rfl, rfl, rfl, rfl⟩
    split
    · exact ⟨.refl s, Iff.rfl⟩
    · exact ⟨.refl s, Iff.rfl⟩
    · rename_i hs
      split
      · exact ⟨k.trans (State.classify_only _), by simp [State.classify_state, hs]⟩
      · exact ⟨k, by simp⟩
    · rename_i hs
      split
      · exact ⟨k.trans (State.presentByte_only _ _ _), by
          have := State.presentByte_state (s.setLineIn (s.lineIn.take b)) (s.lineIn.byteCount - 4) (by assumption) (by simp [hs])
          simp [this, hs]⟩
      · exact ⟨k, by simp⟩
    · exact ⟨k, by simp⟩
  · simp only [exec, execLineInEndDelimiter, Host.Outcome.next.injEq] at h
    subst h
    split
    · rename_i hs
      refine ⟨s.endFrame_only, ?_⟩
      rw [State.endFrame_state]
      simp [LineInReceiver.empty]
      intro hh; simp [hh, LineInState.inFrame] at hs
    · exact ⟨.refl s, Iff.rfl⟩
  · simp only [exec, execLineInErrorSymbol, Host.Outcome.next.injEq] at h
    subst h
    split
    · exact ⟨bad, by simp⟩
    · exact ⟨.refl s, Iff.rfl⟩

/-- Restart Traffic at the Egress Scheduler (R146). -/
theorem frame_restartAtEgress (h : exec .restartAtEgressScheduler s = .next t) :
    t = { s with egress := t.egress, store := t.store, counters := t.counters, agent := t.agent } ∧
    t.agent = { s.agent with execution := t.agent.execution } := by
  simp only [exec, execRestartAtEgressScheduler, Host.Outcome.next.injEq] at h
  subst h
  split
  · rename_i tr r p he
    have h := State.restartEgress_only { s with agent := { s.agent with execution := .restarting tr r p true } }
    generalize State.restartEgress _ = u at h ⊢
    obtain ⟨h1, h2, h3, h4, h5, h6, h7, h8, h9, h10⟩ := h
    cases u
    simp_all
  · exact ⟨rfl, rfl⟩

end Sys2Proof.Machine
end

