-- ==== Sys2Proof/Laws/Store.lean ====
section
/-! SUPPORT. The Frame Store: reading after writing, the canonical form every write keeps, the free list, allocation. -/

namespace Sys2Proof.Machine

open Sys2Proof

/-! ## Reading after writing -/

/-- A byte read after a write is the byte written, or what stood there. -/
theorem memRead_memWrite (m : List Host.Cell) (x : Nat) (w : Byte) (a : Nat) :
    memRead (memWrite m x w) a = if a = x then some w else memRead m a := by
  induction m with
  | nil => simp [memWrite, memRead, eq_comm]
  | cons c rest ih =>
    obtain ⟨k, v⟩ := c
    simp only [memWrite]
    split
    · simp [memRead, eq_comm]
    · split
      · subst_vars
        simp only [memRead, eq_comm]
        split <;> simp_all
      · simp only [memRead, ih]
        split <;> split <;> simp_all

/-- A byte read after bytes are written one after another. -/
theorem memRead_memWriteAll (ws : List Byte) : ∀ (m : List Host.Cell) (x a : Nat),
    memRead (memWriteAll m x ws) a = if x ≤ a ∧ a < x + ws.length then ws[a - x]? else memRead m a := by
  induction ws with
  | nil => intro m x a; simp [memWriteAll]
  | cons w rest ih =>
    intro m x a
    simp only [memWriteAll, ih, memRead_memWrite, List.length_cons]
    by_cases h1 : x + 1 ≤ a ∧ a < x + 1 + rest.length
    · rw [if_pos h1, if_pos (by omega), show a - x = (a - (x + 1)) + 1 by omega, List.getElem?_cons_succ]
    · by_cases h2 : a = x
      · subst h2; simp
      · rw [if_neg h1, if_neg h2, if_neg (by omega)]

/-! ## The canonical form -/

/-- A write above a bound keeps the addresses rising from it. -/
theorem risesFrom_memWrite (m : List Host.Cell) : ∀ (lo x : Nat) (w : Byte), risesFrom lo m = true → lo < x →
    risesFrom lo (memWrite m x w) = true := by
  induction m with
  | nil => intro lo x w _ h; simpa [memWrite, risesFrom] using h
  | cons c rest ih =>
    obtain ⟨k, v⟩ := c
    intro lo x w h hx
    simp only [risesFrom, Bool.and_eq_true, decide_eq_true_eq] at h
    simp only [memWrite]
    split
    · simp only [risesFrom, Bool.and_eq_true, decide_eq_true_eq]
      exact ⟨hx, by assumption, h.2⟩
    · split
      · subst_vars
        simp only [risesFrom, Bool.and_eq_true, decide_eq_true_eq]
        exact h
      · simp only [risesFrom, Bool.and_eq_true, decide_eq_true_eq]
        exact ⟨h.1, ih k x w h.2 (by omega)⟩

/-- Every address of a memory after a write is the one written or one that stood there. -/
theorem mem_memWrite (m : List Host.Cell) (x : Nat) (w : Byte) : ∀ c ∈ memWrite m x w, c = (x, w) ∨ c ∈ m := by
  induction m with
  | nil => intro c h; simpa [memWrite] using h
  | cons d rest ih =>
    obtain ⟨k, v⟩ := d
    intro c h
    simp only [memWrite] at h
    split at h
    · simpa using h
    · split at h
      · rcases List.mem_cons.1 h with h | h
        · exact .inl h
        · exact .inr (List.mem_cons_of_mem _ h)
      · rcases List.mem_cons.1 h with h | h
        · exact .inr (h ▸ List.mem_cons_self)
        · rcases ih c h with h | h
          · exact .inl h
          · exact .inr (List.mem_cons_of_mem _ h)

/-- The canonical form, as two facts. -/
theorem memWf_iff (m : List Host.Cell) :
    memWf m = true ↔ (∀ c rest, m = c :: rest → risesFrom c.1 rest = true) ∧ ∀ c ∈ m, c.1 < 65536 := by
  cases m with
  | nil => simp [memWf]
  | cons c rest => obtain ⟨k, v⟩ := c; simp [memWf]

/-- A write inside the store keeps the canonical form. -/
theorem memWf_memWrite (m : List Host.Cell) (x : Nat) (w : Byte) (h : memWf m = true) (hx : x < 65536) :
    memWf (memWrite m x w) = true := by
  rw [memWf_iff] at h ⊢
  refine ⟨?_, fun c hc => ?_⟩
  · cases m with
    | nil => simp [memWrite, risesFrom]
    | cons d rest =>
      obtain ⟨k, v⟩ := d
      have hr := h.1 _ _ rfl
      intro c l e
      simp only [memWrite] at e
      split at e
      · cases e
        simp only [risesFrom, Bool.and_eq_true, decide_eq_true_eq]
        exact ⟨by assumption, hr⟩
      · split at e
        · cases e; subst_vars; exact hr
        · cases e; exact risesFrom_memWrite rest k x w hr (by omega)
  · rcases mem_memWrite m x w c hc with hc | hc
    · subst hc; exact hx
    · exact h.2 c hc

/-- Bytes written inside the store keep the canonical form. -/
theorem memWf_memWriteAll (ws : List Byte) : ∀ (m : List Host.Cell) (x : Nat), memWf m = true → x + ws.length ≤ 65536 →
    memWf (memWriteAll m x ws) = true := by
  induction ws with
  | nil => intro m x h _; exact h
  | cons w rest ih =>
    intro m x h hx
    simp only [List.length_cons] at hx
    exact ih _ _ (memWf_memWrite m x w h (by omega)) (by omega)

/-- Bytes written inside a block keep the canonical form. -/
theorem memWf_write (st : FrameStore) (b : BlockNo) (offset : Nat) (bytes : List Byte) (h : memWf st.mem = true)
    (hb : offset + bytes.length ≤ 64) : memWf (st.write b offset bytes).mem = true :=
  memWf_memWriteAll bytes st.mem _ h (by have := b.isLt; simp only [blockAddress]; omega)

/-- The store after power-up is in its canonical form. -/
theorem memWf_powerUp : memWf FrameStore.powerUp.mem = true := rfl

@[simp] theorem FrameStore.write_free (st : FrameStore) (b : BlockNo) (offset : Nat) (bytes : List Byte) :
    (st.write b offset bytes).free = st.free := rfl

/-! ## The free list -/

@[simp] theorem FrameStore.returnChain_mem (st : FrameStore) (chain : List BlockNo) : (st.returnChain chain).mem = st.mem := rfl

@[simp] theorem FrameStore.returnChain_free (st : FrameStore) (chain : List BlockNo) :
    (st.returnChain chain).free = chain.reverse ++ st.free := rfl

/-- Chains returned one after another: their blocks, reversed, stand at the front of the free list (R77). -/
theorem foldl_returnChain (chains : List (List BlockNo)) (st : FrameStore) :
    chains.foldl FrameStore.returnChain st = { st with free := chains.flatten.reverse ++ st.free } := by
  induction chains generalizing st with
  | nil => simp
  | cons c r ih => simp [ih, FrameStore.returnChain]

/-- All an allocation request can do (R81): the free list's first block leaves it, or nothing happens. -/
theorem FrameStore.allocate_cases (st : FrameStore) (cls : ReserveClass) (floor : Nat) :
    (∃ b rest, st.free = b :: rest ∧ (cls = .class0 ∨ floor < st.free.length) ∧
      st.allocate cls floor = some (b, { st with free := rest })) ∨
    ((st.free = [] ∨ (cls = .class1 ∧ st.free.length ≤ floor)) ∧ st.allocate cls floor = none) := by
  rcases hf : st.free with _ | ⟨b, rest⟩
  · exact .inr ⟨.inl rfl, by simp [FrameStore.allocate, hf]⟩
  · cases cls with
    | class0 => exact .inl ⟨b, rest, rfl, .inl rfl, by simp [FrameStore.allocate, hf]⟩
    | class1 =>
      by_cases h : floor < (b :: rest).length
      · refine .inl ⟨b, rest, rfl, .inr h, ?_⟩
        simp only [FrameStore.allocate, hf]
        rw [if_pos h]
      · refine .inr ⟨.inr ⟨rfl, by omega⟩, ?_⟩
        simp only [FrameStore.allocate, hf]
        rw [if_neg h]

end Sys2Proof.Machine
end

