-- ==== Sys2Proof/Laws/Pacing.lean ====
section
/-! SUPPORT. The Pacing Unit: the pass over a queue, one equation for each thing that can happen to its head (R67), and what the shared
operations of the queues leave. -/

namespace Sys2Proof.Machine

open Sys2Proof

variable (d : Descriptor) (tick : Word32) (draw : Nat) (flow : Flow)

@[simp] theorem Descriptor.pass_nil (i : Nat) (c : PacingCounters) :
    d.pass tick draw flow [] i c = { queue := [], counters := c, released := [], stale := [] } := rfl

/-- A head the mode does not allow ends the pass (R67). -/
theorem Descriptor.pass_refused (f : QueuedFrame) (rest : List QueuedFrame) (i : Nat) (c : PacingCounters)
    (ha : d.allows c (blocksOf f.length) = false) :
    d.pass tick draw flow (f :: rest) i c = { queue := f :: rest, counters := c, released := [], stale := [] } := by
  simp [Descriptor.pass, ha]

/-- A stale head that the mode allows is discarded, with the counters unchanged (R68). -/
theorem Descriptor.pass_stale (f : QueuedFrame) (rest : List QueuedFrame) (i : Nat) (c : PacingCounters)
    (ha : d.allows c (blocksOf f.length) = true) (hs : d.stale tick f = true) :
    d.pass tick draw flow (f :: rest) i c =
      { d.pass tick draw flow rest (i + 1) c with stale := f :: (d.pass tick draw flow rest (i + 1) c).stale } := by
  simp [Descriptor.pass, ha, hs]

/-- A fresh head that the mode allows is released, and in Interval mode the pass ends with it (R61). -/
theorem Descriptor.pass_last (f : QueuedFrame) (rest : List QueuedFrame) (i : Nat) (c c' : PacingCounters)
    (ha : d.allows c (blocksOf f.length) = true) (hs : d.stale tick f = false)
    (hc : d.afterRelease draw flow i c (blocksOf f.length) = c') (ho : c.onePerEvaluation = true) :
    d.pass tick draw flow (f :: rest) i c = { queue := rest, counters := c', released := [d.release f], stale := [] } := by
  simp [Descriptor.pass, ha, hs, hc, ho]

/-- A fresh head that the mode allows is released, and the pass goes on (R69). -/
theorem Descriptor.pass_released (f : QueuedFrame) (rest : List QueuedFrame) (i : Nat) (c c' : PacingCounters)
    (ha : d.allows c (blocksOf f.length) = true) (hs : d.stale tick f = false)
    (hc : d.afterRelease draw flow i c (blocksOf f.length) = c') (ho : c.onePerEvaluation = false) :
    d.pass tick draw flow (f :: rest) i c =
      { d.pass tick draw flow rest (i + 1) c' with
        released := d.release f :: (d.pass tick draw flow rest (i + 1) c').released } := by
  simp [Descriptor.pass, ha, hs, hc, ho]

/-- A gate that is open shuts at the end of its Open Time, with Released kept (R63). -/
theorem Descriptor.gateChange_opened (position : Nat) (released : Byte) :
    d.gateChange (.gate .opened position released) =
      if d.param1.toNat ≤ position then .gate .shut 0 released else .gate .opened position released := rfl

/-- A gate that is shut opens at the end of its Shut Time, with Released 0 (R63). -/
theorem Descriptor.gateChange_shut (position : Nat) (released : Byte) :
    d.gateChange (.gate .shut position released) =
      if d.param2.toNat ≤ position then .gate .opened 0 0 else .gate .shut position released := rfl

/-- A release keeps the mode of the counters, so a context is built for one mode (R58). -/
@[simp] theorem Descriptor.afterRelease_mode (i : Nat) (c : PacingCounters) (blocks : Nat) :
    (d.afterRelease draw flow i c blocks).mode = c.mode := by
  cases c <;> rfl

/-- An advance keeps the mode of the counters (R58). -/
@[simp] theorem Descriptor.advance_mode (c : PacingCounters) : (d.advance c).mode = c.mode := by
  cases c with
  | openMode => rfl
  | interval n => rfl
  | credit n => rfl
  | gate phase position released =>
    simp only [Descriptor.advance, Descriptor.gateChange]
    split <;> [cases phase; skip] <;> rfl
  | tiered t s w e =>
    simp only [Descriptor.advance, Descriptor.windowChange]
    split <;> simp only [Descriptor.epochChange] <;> split <;> rfl

/-- Frames flushed: the queues of these flows emptied, the chains returned and every frame counted under its own flow (R71, R72, R74). -/
theorem State.flushQueues_eq (s : State) (which : Flow → Bool) (gone : List QueuedFrame)
    (hg : gone = (allFlows.filter which).flatMap (fun f : Flow => s.pacing.queues[f])) :
    s.flushQueues which = { s with
      pacing := { s.pacing with queues := Vector.ofFn (fun f : Flow => if which f then [] else s.pacing.queues[f]) },
      store := { s.store with free := (gone.flatMap (fun q : QueuedFrame => q.chain)).reverse ++ s.store.free },
      counters := s.counters.addFlushed (gone.map (fun q : QueuedFrame => q.flow)) } := by
  subst hg
  simp only [State.flushQueues, State.returnChains, foldl_returnChain, List.flatMap]

end Sys2Proof.Machine
end

