-- ==== Sys2Proof/Laws/Frames.lean ====
section
/-! SUPPORT. All that the beginning of a command can do (R134 to R140), and what the owning blocks of the catalogue's commands leave alone. -/

namespace Sys2Proof.Machine

open Sys2Proof

/-- What the beginning of a command leaves, case by case: no event; a repeat answered from the record; a bad operand length; the owning
block's answer; the owning block's change without an answer yet. -/
inductive Begun (s : State) (run : InboxEntry → State → Reply) : State → Prop
  | nothing : Begun s run s
  | repeated (e : InboxEntry) (r : Response) (h : s.MayBegin e) : Begun s run (s.takeEntry.placeResponse r)
  | malformed (e : InboxEntry) (h : s.MayBegin e) : Begun s run (s.answer e .malformed [])
  | answered (e : InboxEntry) (st : Status) (results : List Byte) (h : s.MayBegin e)
      (ha : (run e s.takeEntry).answer = some (st, results)) :
      Begun s run ((run e s.takeEntry).state.respond s.settings.responseLabel e.transaction e.code st results)
  | unanswered (e : InboxEntry) (h : s.MayBegin e) (ha : (run e s.takeEntry).answer = none) :
      Begun s run (run e s.takeEntry).state

/-- All the beginning of a command can do (R134, R136). -/
theorem State.beginCommand_cases (s : State) (mine : InboxEntry → Bool) (lengths : List Nat) (run : InboxEntry → State → Reply) :
    Begun s run (s.beginCommand mine lengths run) := by
  unfold State.beginCommand
  split
  · rename_i e he
    have h := (ManagementAgent.readyEntry_eq_some s e).1 he
    split
    · simp only [State.handle]
      split
      · exact .repeated e _ h
      · split
        · split
          · rename_i st results ha
            exact .answered e st results h ha
          · rename_i ha
            exact .unanswered e h ha
        · rw [State.takeEntry_respond]
          exact .malformed e h
    · exact .nothing
  · exact .nothing

/-- What every owning block leaves alone: reception, both lines' receivers, the scheduler, the Return Merge, the frames' bytes, the
requests, the Inbox, the Outbox, the record, the station and the execution state (but for Restart Traffic's own). -/
structure Untouched (s u : State) : Prop where
  pending : u.pending = s.pending
  lineIn : u.lineIn = s.lineIn
  classifier : u.classifier = s.classifier
  mem : u.store.mem = s.store.mem
  requests : u.pacing.requests = s.pacing.requests
  tickCounter : u.pacing.tickCounter = s.pacing.tickCounter
  egress : u.egress = s.egress
  lineOut : u.lineOut = s.lineOut
  merge : u.merge = s.merge
  inbox : u.agent.inbox = s.agent.inbox
  outbox : u.agent.outbox = s.agent.outbox
  last : u.agent.last = s.agent.last
  station : u.agent.station = s.agent.station
  execution : u.agent.execution = s.agent.execution

theorem Untouched.refl (s : State) : Untouched s s := ⟨rfl, rfl, rfl, rfl, rfl, rfl, rfl, rfl, rfl, rfl, rfl, rfl, rfl, rfl⟩

theorem Untouched.trans {s t u : State} (h : Untouched s t) (k : Untouched t u) : Untouched s u :=
  ⟨k.1.trans h.1, k.2.trans h.2, k.3.trans h.3, k.4.trans h.4, k.5.trans h.5, k.6.trans h.6, k.7.trans h.7, k.8.trans h.8,
    k.9.trans h.9, k.10.trans h.10, k.11.trans h.11, k.12.trans h.12, k.13.trans h.13,
    k.14.trans h.14⟩

/-! ## Shared operations of the owning blocks -/

theorem State.post_untouched (s : State) (d : Detail) : Untouched s (s.post d) := ⟨rfl, rfl, rfl, rfl, rfl, rfl, rfl, rfl, rfl, rfl, rfl, rfl, rfl, rfl⟩

theorem State.flushQueues_untouched (s : State) (which : Flow → Bool) : Untouched s (s.flushQueues which) := by
  rw [s.flushQueues_eq which _ rfl]
  exact ⟨rfl, rfl, rfl, rfl, rfl, rfl, rfl, rfl, rfl, rfl, rfl, rfl, rfl, rfl⟩

theorem State.guarded_cases (s : State) (ops : List Byte) (k : Bank → Reply) :
    (∃ st, s.guarded ops k = s.refuse st) ∨
      ∃ b, operandBank ops = some b ∧ b ≠ s.plan.active ∧ s.plan.job = none ∧ s.guarded ops k = k b := by
  unfold State.guarded
  split
  · exact .inl ⟨_, rfl⟩
  · rename_i b hb
    split
    · exact .inl ⟨_, rfl⟩
    · rename_i hne
      split
      · exact .inl ⟨_, rfl⟩
      · rename_i hj
        exact .inr ⟨b, hb, hne, by simpa [State.jobRunning] using hj, rfl⟩

theorem State.withBank_cases (s : State) (ops : List Byte) (k : Bank → Reply) :
    (∃ st, s.withBank ops k = s.refuse st) ∨ ∃ b, operandBank ops = some b ∧ s.withBank ops k = k b := by
  unfold State.withBank
  split
  · exact .inl ⟨_, rfl⟩
  · exact .inr ⟨_, ‹_›, rfl⟩

/-! ## Every owning block of the catalogue -/

variable (e : InboxEntry) (s : State)

theorem runIdentify_untouched : Untouched s (runIdentify e s).state := .refl s
theorem runReadSettings_untouched : Untouched s (runReadSettings e s).state := .refl s

theorem runWriteSettings_untouched : Untouched s (runWriteSettings e s).state := by
  simp only [runWriteSettings]
  split
  · exact .refl s
  · split
    · exact .refl s
    · split
      · exact .refl s
      · split
        · exact .refl s
        · simp only [State.answerDone, State.replaceSettings]
          split <;> exact ⟨rfl, rfl, rfl, rfl, rfl, rfl, rfl, rfl, rfl, rfl, rfl, rfl, rfl, rfl⟩

theorem runReadStatus_untouched : Untouched s (runReadStatus e s).state := ⟨rfl, rfl, rfl, rfl, rfl, rfl, rfl, rfl, rfl, rfl, rfl, rfl, rfl, rfl⟩

/-- A read of the plan changes nothing (R118). -/
theorem runReadMapEntry_state : (runReadMapEntry e s).state = s := by
  unfold runReadMapEntry
  rcases s.withBank_cases e.operands _ with ⟨st, h⟩ | ⟨b, -, h⟩ <;> rw [h]
  · rfl
  · split <;> rfl

/-- A listing changes nothing (R119). -/
theorem runListMap_state : (runListMap e s).state = s := by
  unfold runListMap
  rcases s.withBank_cases e.operands _ with ⟨st, h⟩ | ⟨b, -, h⟩ <;> rw [h] <;> rfl

/-- A read of a descriptor changes nothing (R118). -/
theorem runReadFlow_state : (runReadFlow e s).state = s := by
  unfold runReadFlow
  rcases s.withBank_cases e.operands _ with ⟨st, h⟩ | ⟨b, -, h⟩ <;> rw [h] <;> rfl

theorem runWriteMapEntry_untouched : Untouched s (runWriteMapEntry e s).state := by
  unfold runWriteMapEntry
  rcases s.guarded_cases e.operands _ with ⟨st, h⟩ | ⟨b, -, -, -, h⟩ <;> rw [h]
  · exact .refl s
  · dsimp only
    split
    · exact .refl s
    · exact ⟨rfl, rfl, rfl, rfl, rfl, rfl, rfl, rfl, rfl, rfl, rfl, rfl, rfl, rfl⟩

theorem runRemoveMapEntry_untouched : Untouched s (runRemoveMapEntry e s).state := by
  unfold runRemoveMapEntry
  rcases s.guarded_cases e.operands _ with ⟨st, h⟩ | ⟨b, -, -, -, h⟩ <;> rw [h]
  · exact .refl s
  · dsimp only
    split
    · exact .refl s
    · exact ⟨rfl, rfl, rfl, rfl, rfl, rfl, rfl, rfl, rfl, rfl, rfl, rfl, rfl, rfl⟩

theorem State.writeDescriptor_untouched (b : Bank) (f : Flow) (r : DescriptorRecord) : Untouched s (s.writeDescriptor b f r).state := by
  unfold State.writeDescriptor
  split
  · exact .refl s
  · exact ⟨rfl, rfl, rfl, rfl, rfl, rfl, rfl, rfl, rfl, rfl, rfl, rfl, rfl, rfl⟩

theorem runWriteFlow_untouched : Untouched s (runWriteFlow e s).state := by
  unfold runWriteFlow
  rcases s.guarded_cases e.operands _ with ⟨st, h⟩ | ⟨b, -, -, -, h⟩ <;> rw [h]
  · exact .refl s
  · exact s.writeDescriptor_untouched b _ _

theorem runModifyFlow_untouched : Untouched s (runModifyFlow e s).state := by
  unfold runModifyFlow
  rcases s.guarded_cases e.operands _ with ⟨st, h⟩ | ⟨b, -, -, -, h⟩ <;> rw [h]
  · exact .refl s
  · dsimp only
    split
    · exact .refl s
    · exact s.writeDescriptor_untouched b _ _

theorem State.requestJob_untouched (k : JobKind) : Untouched s (s.requestJob k e).state := by
  unfold State.requestJob
  rcases s.guarded_cases e.operands _ with ⟨st, h⟩ | ⟨b, -, -, -, h⟩ <;> rw [h]
  · exact .refl s
  · split
    · exact .refl s
    · exact ⟨rfl, rfl, rfl, rfl, rfl, rfl, rfl, rfl, rfl, rfl, rfl, rfl, rfl, rfl⟩

theorem State.endJob_untouched (j : Job) (r : JobResult) : Untouched s (s.endJob j r) := ⟨rfl, rfl, rfl, rfl, rfl, rfl, rfl, rfl, rfl, rfl, rfl, rfl, rfl, rfl⟩

theorem runAbortJob_untouched : Untouched s (runAbortJob e s).state := by
  unfold runAbortJob
  split
  · exact s.endJob_untouched _ _
  · exact .refl s

theorem State.clearContexts_untouched (which : Flow → Bool) : Untouched s (s.clearContexts which) := by
  constructor <;> simp

theorem State.swap_untouched (b : Bank) : Untouched s (s.swap b) := by
  have h0 : Untouched s { s with plan := { s.plan with active := b } } := ⟨rfl, rfl, rfl, rfl, rfl, rfl, rfl, rfl, rfl, rfl, rfl, rfl, rfl, rfl⟩
  exact (h0.trans (State.flushQueues_untouched _ _)).trans (State.clearContexts_untouched _ _)

theorem runSwapPlan_untouched : Untouched s (runSwapPlan e s).state := by
  unfold runSwapPlan
  rcases s.withBank_cases e.operands _ with ⟨st, h⟩ | ⟨b, -, h⟩ <;> rw [h]
  · exact .refl s
  · split
    · exact .refl s
    · split
      · exact .refl s
      · split
        · exact s.swap_untouched b
        · exact .refl s

theorem runReadPacing_untouched : Untouched s (runReadPacing e s).state := ⟨rfl, rfl, rfl, rfl, rfl, rfl, rfl, rfl, rfl, rfl, rfl, rfl, rfl, rfl⟩

theorem runFlushFlow_untouched : Untouched s (runFlushFlow e s).state := s.flushQueues_untouched _

/-- A read of counters changes nothing (R166). -/
theorem runReadCounters_state : (runReadCounters e s).state = s := by
  unfold runReadCounters
  split <;> rfl

theorem runReadAndClearCounters_untouched : Untouched s (runReadAndClearCounters e s).state := by
  unfold runReadAndClearCounters
  split
  · exact .refl s
  · exact ⟨rfl, rfl, rfl, rfl, rfl, rfl, rfl, rfl, rfl, rfl, rfl, rfl, rfl, rfl⟩

/-! ## The twenty rows that an owning block answers at once -/

/-- The rows of the agent that are answered in the event that begins them: all but Restart Traffic (R147). -/
def answeredRows : List Instr := [.identify, .readSettings, .writeSettings, .readStatus, .readMapEntry, .listMap, .writeMapEntry,
  .removeMapEntry, .readFlow, .writeFlow, .modifyFlow, .copyPlan, .checkPlan, .swapPlan, .abortJob, .readPacing, .flushFlow,
  .readCounters, .readAndClearCounters, .malformedCommand]

theorem guarded_answer (ops : List Byte) (k : Bank → Reply) (h : ∀ b, (k b).answer ≠ none) : (s.guarded ops k).answer ≠ none := by
  rcases s.guarded_cases ops k with ⟨st, hh⟩ | ⟨b, -, -, -, hh⟩ <;> rw [hh]
  · simp [State.refuse]
  · exact h b

theorem withBank_answer (ops : List Byte) (k : Bank → Reply) (h : ∀ b, (k b).answer ≠ none) : (s.withBank ops k).answer ≠ none := by
  rcases s.withBank_cases ops k with ⟨st, hh⟩ | ⟨b, -, hh⟩ <;> rw [hh]
  · simp [State.refuse]
  · exact h b

theorem State.writeDescriptor_answer (b : Bank) (f : Flow) (r : DescriptorRecord) : (s.writeDescriptor b f r).answer ≠ none := by
  unfold State.writeDescriptor
  split <;> simp [State.refuseWith, State.answerDone]

/-- Each of these rows begins a command of the agent, whose owning block answers it and leaves the rest alone. -/
theorem exec_answeredRow (c : Instr) (hc : c ∈ answeredRows) : ∃ mine lengths run,
    (∀ e s, Untouched s (run e s).state) ∧ (∀ e s, (run e s).answer ≠ none) ∧
      ∀ s, exec c s = .next (s.beginCommand mine lengths run) := by
  simp only [answeredRows, List.mem_cons, List.not_mem_nil, or_false] at hc
  rcases hc with rfl | rfl | rfl | rfl | rfl | rfl | rfl | rfl | rfl | rfl | rfl | rfl | rfl | rfl | rfl | rfl | rfl | rfl | rfl | rfl
  · exact ⟨_, _, _, runIdentify_untouched, fun _ _ => by simp [runIdentify, State.answerDone], fun _ => rfl⟩
  · exact ⟨_, _, _, runReadSettings_untouched, fun _ _ => by simp [runReadSettings, State.answerDone], fun _ => rfl⟩
  · refine ⟨_, _, _, runWriteSettings_untouched, fun e s => ?_, fun _ => rfl⟩
    simp only [runWriteSettings]
    repeat' split
    all_goals simp [State.refuse, State.refuseWith, State.answerDone]
  · exact ⟨_, _, _, runReadStatus_untouched, fun _ _ => by simp [runReadStatus, State.answerDone], fun _ => rfl⟩
  · refine ⟨_, _, _, fun e s => by rw [runReadMapEntry_state]; exact .refl s, fun e s => ?_, fun _ => rfl⟩
    exact withBank_answer s _ _ (fun b => by split <;> simp [State.refuse, State.answerDone])
  · refine ⟨_, _, _, fun e s => by rw [runListMap_state]; exact .refl s, fun e s => ?_, fun _ => rfl⟩
    exact withBank_answer s _ _ (fun b => by simp [State.answerDone])
  · refine ⟨_, _, _, runWriteMapEntry_untouched, fun e s => ?_, fun _ => rfl⟩
    exact guarded_answer s _ _ (fun b => by dsimp only; split <;> simp [State.refuse, State.answerDone])
  · refine ⟨_, _, _, runRemoveMapEntry_untouched, fun e s => ?_, fun _ => rfl⟩
    exact guarded_answer s _ _ (fun b => by dsimp only; split <;> simp [State.refuse, State.answerDone])
  · refine ⟨_, _, _, fun e s => by rw [runReadFlow_state]; exact .refl s, fun e s => ?_, fun _ => rfl⟩
    exact withBank_answer s _ _ (fun b => by simp [State.answerDone])
  · refine ⟨_, _, _, runWriteFlow_untouched, fun e s => ?_, fun _ => rfl⟩
    exact guarded_answer s _ _ (fun b => s.writeDescriptor_answer b _ _)
  · refine ⟨_, _, _, runModifyFlow_untouched, fun e s => ?_, fun _ => rfl⟩
    exact guarded_answer s _ _ (fun b => by
      dsimp only
      split
      · simp [State.refuseWith]
      · exact s.writeDescriptor_answer b _ _)
  · refine ⟨_, _, _, fun e s => s.requestJob_untouched e _, fun e s => ?_, fun _ => rfl⟩
    exact guarded_answer s _ _ (fun b => by split <;> simp [State.refuse])
  · refine ⟨_, _, _, fun e s => s.requestJob_untouched e _, fun e s => ?_, fun _ => rfl⟩
    exact guarded_answer s _ _ (fun b => by split <;> simp [State.refuse])
  · refine ⟨_, _, _, runSwapPlan_untouched, fun e s => ?_, fun _ => rfl⟩
    exact withBank_answer s _ _ (fun b => by
      repeat' split
      all_goals simp [State.refuse, State.answerDone])
  · refine ⟨_, _, _, runAbortJob_untouched, fun e s => ?_, fun _ => rfl⟩
    unfold runAbortJob
    split <;> simp [State.refuse, State.answerDone]
  · exact ⟨_, _, _, runReadPacing_untouched, fun _ _ => by simp [runReadPacing, State.answerDone], fun _ => rfl⟩
  · exact ⟨_, _, _, runFlushFlow_untouched, fun _ _ h => by simp [runFlushFlow, State.answerDone] at h, fun _ => rfl⟩
  · refine ⟨_, _, _, fun e s => by rw [runReadCounters_state]; exact .refl s, fun e s => ?_, fun _ => rfl⟩
    unfold runReadCounters
    split <;> simp [State.refuse, State.answerDone]
  · refine ⟨_, _, _, runReadAndClearCounters_untouched, fun e s => ?_, fun _ => rfl⟩
    unfold runReadAndClearCounters
    split <;> simp [State.refuse, State.answerDone]
  · exact ⟨_, _, _, fun _ s => .refl s, fun _ _ => by simp [State.refuse], fun _ => rfl⟩

/-- What an answered row leaves of the part the owning blocks do not touch: everything but the Inbox, the Outbox and the record, which are
either untouched too or one entry shorter and one ready response longer (R134 to R136). -/
theorem answeredRow_frame (c : Instr) (hc : c ∈ answeredRows) (s t : State) (h : exec c s = .next t) :
    t.pending = s.pending ∧ t.lineIn = s.lineIn ∧ t.classifier = s.classifier ∧ t.store.mem = s.store.mem ∧
      t.pacing.requests = s.pacing.requests ∧ t.pacing.tickCounter = s.pacing.tickCounter ∧ t.egress = s.egress ∧
      t.lineOut = s.lineOut ∧ t.merge = s.merge ∧ t.agent.station = s.agent.station ∧ t.agent.execution = s.agent.execution ∧
      ((t.agent.inbox = s.agent.inbox ∧ t.agent.outbox = s.agent.outbox) ∨
        ∃ e r, s.MayBegin e ∧ t.agent.inbox = s.agent.inbox.tail ∧ t.agent.outbox = s.agent.outbox ++ [.ready r]) := by
  obtain ⟨mine, lengths, run, hu, ha, hx⟩ := exec_answeredRow c hc
  rw [hx] at h
  have hb := s.beginCommand_cases mine lengths run
  simp only [Host.Outcome.next.injEq] at h
  rw [h] at hb
  cases hb with
  | nothing => exact ⟨rfl, rfl, rfl, rfl, rfl, rfl, rfl, rfl, rfl, rfl, rfl, .inl ⟨rfl, rfl⟩⟩
  | repeated e r hm =>
    exact ⟨rfl, rfl, rfl, rfl, rfl, rfl, rfl, rfl, rfl, rfl, rfl, .inr ⟨e, r, hm, rfl, by simp [State.placeResponse, State.takeEntry]⟩⟩
  | malformed e hm => exact ⟨rfl, rfl, rfl, rfl, rfl, rfl, rfl, rfl, rfl, rfl, rfl, .inr ⟨e, _, hm, rfl, rfl⟩⟩
  | answered e st results hm hr =>
    have k := hu e s.takeEntry
    rw [State.respond_reserved _ s.agent.outbox _ _ _ _ _ k.outbox]
    exact ⟨k.pending, k.lineIn, k.classifier, k.mem, k.requests, k.tickCounter, k.egress, k.lineOut, k.merge, k.station, k.execution,
      .inr ⟨e, _, hm, k.inbox, rfl⟩⟩
  | unanswered e hm hr => exact absurd hr (ha e s.takeEntry)

end Sys2Proof.Machine
end

