-- ==== Sys2Proof/Tests/Slice0.lean ====
section
/-! SUPPORT. The model's own tests: ill-formed terms refused, check sums, one step of each command against the worked sequences and the
tables of spec/, and a witness for the hypotheses of every statement. -/

namespace Sys2Proof.Tests

set_option Elab.async false

open Sys2Proof Sys2Proof.Machine

/-! ## Helpers -/

/-- The state a command leaves. -/
def after (c : Instr) (s : State) : State :=
  match exec c s with
  | .next t => t
  | .fault _ => s
  | .refused _ => s

/-- A command entry with transaction 10 for station 0 (10_formats section 10.2). -/
def command (code : Byte) (ops : List Byte) : InboxEntry :=
  { complete := true, bytes := [0xFF, 0xF0, 0x00, 0x00, 0x01, 0x00, 0x0A, code] ++ ops }

/-- A state in which the agent may begin this entry. -/
def waitingIn (s : State) (e : InboxEntry) : State :=
  { s with agent := { s.agent with inbox := [e], outbox := [], execution := .free, last := none } }

/-- The same from the power-up state. -/
def waiting (code : Byte) (ops : List Byte) : State := waitingIn State.reset (command code ops)

/-- The results of the one response in the Outbox, with its status. -/
def answerOf (s : State) : Option (Status × List Byte) :=
  match s.agent.outbox with
  | [.ready r] => some (r.status, r.results)
  | _ => none

/-- A released frame of a flow and level, all of whose segments but the last are full. -/
def released (flow : Flow) (level : Level) (length : Nat) (chain : List BlockNo) (preemptible preempting : Bool) : ReleasedFrame :=
  { flow := flow, reserveClass := .class1, chain := chain, length := length, arrivalTick := 0, level := level,
    preemptible := preemptible, preempting := preempting }

/-- A frame that has sent some segments. -/
def sent (f : ReleasedFrame) (n : Nat) : SentFrame := { toReleasedFrame := f, segmentsSent := n }

/-- A segment of a frame, its payload left out. -/
def segmentOf (c : SentFrame) : InFlight :=
  .segment { stream := c.level, position := positionOf (blocksOf c.length) c.segmentsSent, payload := [] }

/-- A scheduler with these lanes' frames, this slot and this stack. -/
def scheduler (lanes : List ReleasedFrame) (current : Option SentFrame) (inFlight : Option InFlight) (stack : List SentFrame) :
    EgressScheduler :=
  { EgressScheduler.powerUp with
    lanes := Vector.ofFn (fun l : Level => lanes.filter (fun f => f.level == l)),
    current := current, inFlight := inFlight, stack := stack, streamReset := false }

/-- The power-up state with line-out Up and this scheduler. -/
def sending (e : EgressScheduler) : State := { State.reset with lineOut := { state := .idle, holdMask := 0 }, egress := e }

/-- The power-up state with the receiver of line-in as given, and this classification. -/
def receiving (r : LineInReceiver) (c : Option Classification) : State := { State.reset with lineIn := r, classifier := c }

/-- A receiver in this state with this count and a full hold-back. -/
def receiver (state : LineInState) (count : Nat) : LineInReceiver :=
  { LineInReceiver.empty state with byteCount := count, holdBack := [1, 2, 3, 4], header := [0x01, 0x00, 0x00, 0x00] }

/-- The receiver after these bytes of a frame. -/
def received (bytes : List Byte) : LineInReceiver := bytes.foldl LineInReceiver.take (LineInReceiver.empty .header)

/-- Eight bytes of a frame with their frame check. -/
def goodBytes : List Byte := withFrameCheck [0x01, 0x00, 0, 0, 5, 6, 7, 8]

/-- The classification of a forward frame. -/
def forwarded (f : Flow) (cls : ReserveClass) : Classification := { label := 0x0100, kind := .forward f cls, inboxPlace := false }

/-- The classification of a Management frame with its place. -/
def managed : Classification := { label := 0xFFF0, kind := .management, inboxPlace := true }

/-- The power-up plan with this map and one Present descriptor in the active bank. -/
def planned (map : List MapEntry) (f : Flow) (d : Descriptor) : PlanStore :=
  { PlanStore.powerUp with bankA :=
    { map := map, flows := (Vector.replicate 256 Descriptor.powerUp).set f { d with present := true }, ready := true } }

/-- A queued frame of one block. -/
def queued (flow : Flow) (length : Nat) (tick : Word32) : QueuedFrame :=
  { flow := flow, reserveClass := .class1, chain := [0], length := length, arrivalTick := tick }

/-- The power-up state with one flow Present, its queue and its context. -/
def pacing (f : Flow) (d : Descriptor) (queue : List QueuedFrame) (context : Option PacingContext) : State :=
  { State.reset with
    plan := planned [] f d,
    pacing := { PacingUnit.powerUp with queues := PacingUnit.powerUp.queues.set f queue,
                                        contexts := PacingUnit.powerUp.contexts.set f context } }

/-- The agent Restarting, transaction 5, with what has been taken. -/
def restarting (s : State) (r p e : Bool) : State :=
  { s with agent := { s.agent with execution := .restarting 5 r p e, outbox := [.reserved] } }

/-! ## Well-formedness -/

/-- A Hold whose two halves are not complements is refused. -/
theorem test_hold_halves_refused : (Instr.holdSymbol (.byte 0x33)).wellFormed = false := by decide

/-- A Hold with levels 0 and 1 is well formed: 0xC3 (10_formats section 10.4). -/
theorem test_hold_wellFormed : (Instr.holdSymbol (.byte 0xC3)).wellFormed = true := by decide

/-- An Abort argument whose upper bits are not 0b101101 is refused. -/
theorem test_abort_refused : (Instr.receivedAbortOrStreamReset .abort (.byte 0x02)).wellFormed = false := by decide

/-- A Stream Reset argument that is not 0x5A is refused. -/
theorem test_streamReset_refused : (Instr.receivedAbortOrStreamReset .streamReset (.byte 0x5B)).wellFormed = false := by decide

/-- An argument that is not a byte is refused. -/
theorem test_notAByte_refused : (Instr.holdSymbol .notAByte).wellFormed = false := by decide

/-- The table gives no row any bits, so no word spells a command. -/
theorem test_no_word_spells_a_command : decodeTableWord 8 0x01 = none ∧ State.reset.withFetchWord 8 1 = State.reset := ⟨rfl, rfl⟩

/-! ## Check sums: the well-known answers for "123456789" of the two polynomials of R177 and R179 -/

theorem test_frameCheck_digits : frameCheck [0x31, 0x32, 0x33, 0x34, 0x35, 0x36, 0x37, 0x38, 0x39] = 0xFC891918 := by
  decide +kernel

theorem test_segmentCheck_digits : segmentCheck [0x31, 0x32, 0x33, 0x34, 0x35, 0x36, 0x37, 0x38, 0x39] = 0x29B1 := by
  decide +kernel

/-! ## Reset and reception -/

/-- Station 3 has Management Label 0xFFF3 and Response Label 0xFFE3 (05 section 5.4, six frames). -/
theorem test_powerUp_labels : (after (.powerUpReset 3) State.reset).settings.managementLabel = 0xFFF3 ∧
    (after (.powerUpReset 3) State.reset).settings.responseLabel = 0xFFE3 := by decide +kernel

/-- With one frame in reception, a Start ends it and begins the next: LineInFrames and LengthErrors count it. -/
theorem test_start_ends_frame :
    let t := after .lineInStartDelimiter (receiving (receiver .header 2) none)
    t.lineIn.state = .header ∧ t.lineIn.byteCount = 0 ∧ t.counters.read .lineInFrames = 1 ∧ t.counters.read .lengthErrors = 1 := by
  decide +kernel

/-- Six frames, step 4: the label of a Management frame with three places taken takes the fourth (05 section 5.4). -/
theorem test_management_header_takes_place :
    let s := { receiving (received [0xFF, 0xF0, 0x00]) none with
      agent := { State.reset.agent with inbox := [command 1 [], command 2 [], command 4 []] } }
    let t := after (.lineInByte 0) s
    t.agent.inbox.length = 4 ∧ t.lineIn.state = .keep := by decide +kernel

/-- The floor at work, step 4: class 1 is refused with 32 blocks free, and its four blocks come back (04 section 4.3). -/
theorem test_floor_refuses :
    let s := receiving { receiver .keep 260 with
      record := some { flow := 50, reserveClass := .class1, chain := [0, 1, 2, 3] } } (some (forwarded 50 .class1))
    let t := after (.lineInByte 0) { s with store := { s.store with free := (List.finRange 1024).drop 992 } }
    t.store.free.length = 36 ∧ t.lineIn.state = .drain ∧ t.lineIn.truncated = true := by decide +kernel

/-- Six frames, frame 5: a bad check counts CheckErrors and posts CheckError with the label. -/
theorem test_end_bad_check :
    let t := after .lineInEndDelimiter (receiving { receiver .keep 134 with bad := true } (some (forwarded 40 .class1)))
    t.counters.read .checkErrors = 1 ∧ t.reports.map ReportRecord.first = [.checkError 0x0100] := by decide +kernel

/-- Six frames, frame 1: a good frame of 8 bytes is handed over with its Length. -/
theorem test_end_good_frame :
    let r := { received goodBytes with state := .keep, record := some { flow := 12, reserveClass := .class0, chain := [7] } }
    (after .lineInEndDelimiter (receiving r (some (forwarded 12 .class0)))).pacing.requests =
      [{ flow := 12, reserveClass := .class0, chain := [7], length := 8 }] := by decide +kernel

/-- An error symbol marks the frame in reception bad (R92). -/
theorem test_error_symbol_marks : (after .lineInErrorSymbol (receiving (receiver .keep 9) none)).lineIn.bad = true := by decide +kernel

/-- Line-in coming Up posts LineState naming line-in (R105). -/
theorem test_lineIn_up_posts : (after .lineInComesUp State.reset).reports.map ReportRecord.first = [.lineState .lineIn] := by
  decide +kernel

/-- Line-in going Down returns the blocks of the frame in reception (R104). -/
theorem test_lineIn_down_returns :
    let s := receiving { receiver .keep 9 with record := some { flow := 1, reserveClass := .class0, chain := [3, 4] } }
      (some (forwarded 1 .class0))
    (after .lineInGoesDown { s with store := { s.store with free := [9] } }).store.free = [4, 3, 9] := by decide +kernel

/-- Restart Traffic counts the forward frame in reception in Flushed and drains it (R106). -/
theorem test_restart_drains :
    let t := after .restartAtLineInReceiver
      (restarting (receiving (receiver .keep 9) (some (forwarded 1 .class0))) false false false)
    t.lineIn.state = .drain ∧ t.counters.readFlow 1 .flushed = 1 := by decide +kernel

/-! ## Line-out receive, segments and the choice -/

/-- A Hold of level 2 starts the timer of level 2 for the partial frame on the stack (R36). -/
theorem test_hold_starts_timer :
    let s := sending (scheduler [] (some (sent (released 4 0 20 [0] false true) 0)) (some .streamReset)
      [sent (released 51 2 150 [4, 5, 6] true true) 1])
    (after (.holdSymbol (.byte 0xB4)) s).egress.timers.toList = [.stopped, .stopped, .running 5000, .stopped] := by decide +kernel

/-- A Hold that cannot be decoded is discarded (R180). -/
theorem test_hold_undecodable : (after (.holdSymbol (.byte 0x44)) (sending EgressScheduler.powerUp)).lineOut.holdMask = 0 := by
  decide +kernel

/-- A received Abort is discarded (R180). -/
theorem test_received_abort : (after (.receivedAbortOrStreamReset .abort (.byte 0xB5)) State.reset) = State.reset := rfl

/-- Sharing the transmitter, step 7: with both places taken E3 is refused (08 section 8.2). -/
theorem test_return_refused :
    let s := { sending EgressScheduler.powerUp with
      merge := { buffer := [⟨true, []⟩, ⟨true, []⟩], lastServed := .returnSide, transmitter := .free } }
    let t := after .returnStartDelimiter s
    t.lineOut.state = .draining ∧ t.counters.read .returnDrops = 1 := by decide +kernel

/-- A return byte is stored behind the others (R152). -/
theorem test_return_byte :
    let s := { State.reset with lineOut := { state := .storing, holdMask := 0 },
                                merge := { buffer := [⟨false, [1]⟩], lastServed := .agentSide, transmitter := .down } }
    (after (.returnByte 2) s).merge.buffer = [⟨false, [1, 2]⟩] := by decide +kernel

/-- A return frame of 11 bytes is given up at its End (R153). -/
theorem test_return_short :
    let s := { State.reset with
      lineOut := { state := .storing, holdMask := 0 },
      merge := { buffer := [⟨false, List.replicate 11 0⟩], lastServed := .agentSide, transmitter := .down } }
    let t := after .returnEndDelimiter s
    t.merge.buffer = [] ∧ t.counters.read .returnDrops = 1 := by decide +kernel

/-- A return frame with an error symbol is given up and drained (R153). -/
theorem test_return_error :
    let s := { State.reset with lineOut := { state := .storing, holdMask := 0 },
                                merge := { buffer := [⟨false, [1]⟩], lastServed := .agentSide, transmitter := .down } }
    (after .returnErrorSymbol s).lineOut.state = .draining := by decide +kernel

/-- Line-out coming Up sends the Stream Reset first (R48). -/
theorem test_lineOut_up : (after .lineOutComesUp State.reset).egress.inFlight = some .streamReset := by decide +kernel

/-- Line-out going Down abandons the current frame and the stack entry: two LineOutAbandons (R45). -/
theorem test_lineOut_down :
    let s := sending (scheduler [] (some (sent (released 51 2 150 [0, 1, 2] true true) 1))
      (some (segmentOf (sent (released 51 2 150 [0, 1, 2] true true) 1))) [sent (released 70 3 230 [3, 4, 5, 6] true false) 2])
    let t := after .lineOutGoesDown s
    t.counters.read .lineOutAbandons = 2 ∧ t.egress.streamReset = true ∧ t.store.free.take 3 = [6, 5, 4] := by decide +kernel

/-- Three nested preemptions, step 3: B3 is pushed and B2 starts (01 section 1.4). -/
theorem test_preemption :
    let b3 := released 40 3 230 [0, 1, 2, 3] true false
    let b2 := released 21 2 150 [4, 5, 6] true true
    let t := after .segmentCompletion (sending (scheduler [b2] (some (sent b3 0)) (some (segmentOf (sent b3 0))) []))
    t.egress.current = some (sent b2 0) ∧ t.egress.stack = [sent b3 1] ∧ t.counters.read .preemptions = 1 := by decide +kernel

/-- Three nested preemptions, step 14: B3 is done, its four blocks are back, and the transmitter is idle. -/
theorem test_last_segment :
    let b3 := released 40 3 230 [0, 1, 2, 3] true false
    let t := after .segmentCompletion (sending (scheduler [] (some (sent b3 3)) (some (segmentOf (sent b3 3))) []))
    t.egress.current = none ∧ t.egress.inFlight = none ∧ t.counters.readFlow 40 .sent = 1 ∧ t.store.free.take 4 = [3, 2, 1, 0] := by
  decide +kernel

/-- The completion of an Abort counts AbortsSent and resumes the stack (R10, R43). -/
theorem test_abort_completion :
    let b3 := released 40 3 230 [0, 1, 2, 3] true false
    let t := after .controlSymbolCompletion (sending (scheduler [] none (some (.abort 2)) [sent b3 1]))
    t.counters.read .abortsSent = 1 ∧ t.egress.current = some (sent b3 1) := by decide +kernel

/-- A hold against an expiry, step 8b: the expiry gives the suspended frame of level 2 up and its stream becomes pending (R39). -/
theorem test_stall_expiry :
    let f := released 51 2 150 [4, 5, 6] true true
    let c := sent (released 14 1 150 [1, 2, 3] true true) 1
    let s := sending { scheduler [] (some c) (some (segmentOf c)) [sent f 1] with
      timers := #v[.stopped, .stopped, .ended, .stopped] }
    let t := after (.stallTimerExpiry 2) s
    t.egress.stack = [] ∧ t.egress.pendingAborts = 4#4 ∧ t.counters.read .stallAborts = 1 := by decide +kernel

/-- The encoded segment: stream 2, Last, 22 bytes of payload: header bytes 0xB0 and 0x15 (10_formats section 10.3). -/
theorem test_segment_header :
    Segment.headerBytes { stream := 2, position := .last, payload := List.replicate 22 0 } = [0xB0, 0x15] := by decide +kernel

/-! ## Pacing -/

/-- The descriptor of flow 33 in the worked sequence of 03 section 3.6. -/
def credit33 : Descriptor :=
  { Descriptor.powerUp with urgency := 2, mode := .credit, param1 := 3, param2 := 16, depthLimit := 3, overflow := .dropOldest,
                            maxResidence := 2, generation := 9 }

/-- Credit, overflow and a stale head, step 1: the Ceiling of 16 pays P of 16 blocks, and the Credit is 0. -/
theorem test_admission_credit :
    let s := pacing 33 credit33 [] none
    let t := after .admissionRequest { s with pacing := { s.pacing with
      requests := [{ flow := 33, reserveClass := .class1, chain := List.finRange 16 |>.map (Fin.castLE (by decide)), length := 1024 }] } }
    t.pacing.contexts[33] = some { generation := 9, counters := .credit 0 } ∧ t.egress.lanes[2].length = 1 ∧
      t.counters.readFlow 33 .admitted = 1 := by decide +kernel

/-- Credit, overflow and a stale head, step 4: a tick adds the Refill, and Q of 10 blocks waits. -/
theorem test_tick_refills :
    let ctx := { credit33 with present := true }.tickContext (some { generation := 9, counters := .credit 0 })
    let r := credit33.evaluate 1 0 33 ctx [queued 33 600 0]
    ctx = some { generation := 9, counters := .credit 3 } ∧ r.queue.length = 1 ∧ r.counters = .credit 3 := by decide +kernel

/-- The descriptor of flow 8 in the worked sequence of 03 section 3.7. -/
def gate8 : Descriptor := { Descriptor.powerUp with urgency := 1, mode := .gate, param1 := 3, param2 := 2, param3 := 2, depthLimit := 8 }

/-- A gated flow, step 10: the gate opens at the tick, releases two of three, and counts them. -/
theorem test_tick_opens_gate :
    let s := pacing 8 gate8 [queued 8 40 0, queued 8 41 0, queued 8 42 0] (some { generation := 0, counters := .gate .shut 1 2 })
    let t := after .tickExpiry s
    t.pacing.contexts[8] = some { generation := 0, counters := .gate .opened 0 2 } ∧
      t.egress.lanes[1].map (fun f => f.length) = [40, 41] ∧ t.pacing.queues[8].map (fun f => f.length) = [42] := by decide +kernel

/-- A gate phase standing at its length changes (R63; log 19). -/
theorem test_gate_phase_change :
    (after (.gatePhaseChange 8) (pacing 8 gate8 [] (some { generation := 0, counters := .gate .opened 3 1 }))).pacing.contexts[8] =
      some { generation := 0, counters := .gate .shut 0 1 } := by decide +kernel

/-- A Tiered descriptor: windows of 4 ticks, 2 frames a window, epochs of 3 windows, 5 frames an epoch. -/
def tiered6 : Descriptor := { Descriptor.powerUp with mode := .tiered, param1 := 4, param2 := 2, param3 := 3, param4 := 5 }

/-- A window standing at its length ends (R65; log 19). -/
theorem test_window_boundary :
    (after (.windowBoundary 6) (pacing 6 tiered6 [] (some { generation := 0, counters := .tiered 4 2 1 3 }))).pacing.contexts[6] =
      some { generation := 0, counters := .tiered 0 0 2 3 } := by decide +kernel

/-- An epoch standing at its length ends (R65; log 19). -/
theorem test_epoch_boundary :
    (after (.epochBoundary 6) (pacing 6 tiered6 [] (some { generation := 0, counters := .tiered 0 0 3 5 }))).pacing.contexts[6] =
      some { generation := 0, counters := .tiered 0 0 0 0 } := by decide +kernel

/-- Restart Traffic empties a queue, counts it in Flushed and sets the context to none (R74). -/
theorem test_restart_queues :
    let t := after .restartAtPacingUnit
      (restarting (pacing 33 credit33 [queued 33 600 0] (some { generation := 9, counters := .credit 0 })) true false false)
    t.pacing.queues[33] = [] ∧ t.pacing.contexts[33] = none ∧ t.counters.readFlow 33 .flushed = 1 := by decide +kernel

/-- Restart Traffic empties the lanes and makes the streams of the stack pending (R24, R25). -/
theorem test_restart_lanes :
    let s := restarting (sending (scheduler [released 9 1 20 [7] true false] none (some .streamReset)
      [sent (released 40 3 230 [3, 4, 5, 6] true false) 2])) true true false
    let t := after .restartAtEgressScheduler s
    t.egress.lanes[1] = [] ∧ t.egress.stack = [] ∧ t.egress.pendingAborts = 8#4 ∧ t.counters.readFlow 9 .flushed = 1 := by
  decide +kernel

/-! ## The Return Merge -/

/-- Sharing the transmitter, step 10: with both sides waiting, the side not served last is served. -/
theorem test_merge_alternates :
    let r : Response := { label := 0xFFE0, transaction := 20, code := 1, status := .done, repeated := false, results := [] }
    let s := { receiving (LineInReceiver.empty .idle) none with
      merge := { buffer := [⟨true, [1]⟩], lastServed := .returnSide, transmitter := .free },
      agent := { State.reset.agent with outbox := [.ready r] } }
    let t := after .returnMergeChoice s
    t.merge.lastServed = .agentSide ∧ t.merge.transmitter = .busy .response (withFrameCheck r.bytes) := by decide +kernel

/-- Sharing the transmitter, step 9: a return frame's completion frees its place. -/
theorem test_transmission_completion :
    let s := { State.reset with merge := { buffer := [⟨true, [1]⟩, ⟨true, [2]⟩], lastServed := .returnSide,
                                           transmitter := .busy .returnFrame [1] } }
    (after .lineInTransmissionCompletion s).merge.buffer = [⟨true, [2]⟩] := by decide +kernel

/-! ## The agent -/

/-- Identify's results, byte by byte (R145, 10_formats section 10.2). -/
theorem test_identify : answerOf (after .identify (waiting 0x01 [])) = some (.done,
    [0x3A, 0x1C, 0x26, 0x04, 0x01, 0x00, 0x04, 0x00, 0x00, 0x40, 0x04, 0x00, 0x00, 0x10, 0x01, 0x00, 0x02, 0x00, 0x01, 0x00, 0x00, 0x04,
     0x00, 0x04, 0x00, 0x04, 0x00, 0x02, 0x00, 0x02, 0x00, 0x07]) := by decide +kernel

/-- Read Settings after power-up (07 section 7.5). -/
theorem test_readSettings : answerOf (after .readSettings (waiting 0x02 [])) = some (.done,
    [0xFF, 0xF0, 0xFF, 0xE0, 0x00, 0x64, 0x20, 0x13, 0x88, 0x00, 0x00, 0x7F]) := by decide +kernel

/-- Write Settings with a Tick Period of 0: Range, setting 2 (R143). -/
theorem test_writeSettings_range :
    answerOf (after .writeSettings (waiting 0x03 [0xFF, 0xF0, 0x7E, 0x03, 0, 0, 0x20, 0x13, 0x88, 0, 0, 0x7F])) = some (.range, [2]) := by
  decide +kernel

/-- A lost response, step 2: a Write Settings that moves the Response Label is answered under the old one (R137). -/
theorem test_writeSettings_label :
    let t := after .writeSettings (waiting 0x03 [0xFF, 0xF0, 0x7E, 0x03, 0, 100, 0x20, 0x13, 0x88, 0, 0, 0x7F])
    t.settings.responseLabel = 0x7E03 ∧
      t.agent.outbox = [.ready (responseTo 0xFFE0 (command 0x03 [0xFF, 0xF0, 0x7E, 0x03, 0, 100, 0x20, 0x13, 0x88, 0, 0, 0x7F]) .done [])] := by
  decide +kernel

/-- Read Status after power-up: 53 bytes, one Outbox place for itself and no Inbox place (R175). -/
theorem test_readStatus :
    (answerOf (after .readStatus (waiting 0x04 []))).map (fun x => (x.2.length, (x.2.drop 38).take 3)) = some (53, [0, 1, 0]) := by
  decide +kernel

/-- The plan of the worked sequence of a job (06 section 6.6): bank A with three entries. -/
def jobPlan : PlanStore := planned [⟨0x0100, 12⟩, ⟨0x0200, 40⟩, ⟨0x0300, 30⟩] 12 Descriptor.powerUp

/-- The state with that plan and a command waiting. -/
def waitingPlan (code : Byte) (ops : List Byte) : State := waitingIn { State.reset with plan := jobPlan } (command code ops)

theorem test_readMapEntry : answerOf (after .readMapEntry (waitingPlan 0x05 [0, 0x02, 0x00])) = some (.done, [40]) := by decide +kernel

theorem test_readMapEntry_missing : answerOf (after .readMapEntry (waitingPlan 0x05 [0, 0x02, 0x01])) = some (.missing, []) := by
  decide +kernel

theorem test_listMap_after : answerOf (after .listMap (waitingPlan 0x06 [0, 0x01, 0x00])) =
    some (.done, [0, 3, 0, 2, 0x02, 0x00, 40, 0x03, 0x00, 30]) := by decide +kernel

theorem test_readFlow : answerOf (after .readFlow (waitingPlan 0x09 [0, 12])) =
    some (.done, [1, 0, 0, 0, 0, 0, 0, 0, 0, 0, 0, 0, 0, 1, 0, 0, 0, 0]) := by decide +kernel

theorem test_writeMapEntry_new : answerOf (after .writeMapEntry (waitingPlan 0x07 [1, 0x04, 0x00, 33])) = some (.done, [0, 1, 1]) := by
  decide +kernel

theorem test_writeMapEntry_active : answerOf (after .writeMapEntry (waitingPlan 0x07 [0, 0x04, 0x00, 33])) = some (.activeBank, []) := by
  decide +kernel

theorem test_removeMapEntry_missing : answerOf (after .removeMapEntry (waitingPlan 0x08 [1, 0x04, 0x00])) = some (.missing, []) := by
  decide +kernel

/-- Write Flow with Credit and a Ceiling of 15: Range, field 6 (R110, R116). -/
theorem test_writeFlow_range :
    answerOf (after .writeFlow (waitingPlan 0x0A [1, 33, 1, 2, 0, 0, 2, 0, 3, 0, 15, 0, 0, 0, 0, 3, 1, 0, 2, 9])) = some (.range, [6]) := by
  decide +kernel

/-- Write Flow with the descriptor of flow 33 (03 section 3.6) stores it. -/
theorem test_writeFlow_stores :
    ((after .writeFlow (waitingPlan 0x0A [1, 33, 1, 2, 0, 0, 2, 0, 3, 0, 16, 0, 0, 0, 0, 3, 1, 0, 2, 9])).plan.bankB.flows[33]) =
      { credit33 with present := true } := by decide +kernel

/-- Modify Flow of the mode alone, whose kept parameters do not suit it: Range, field 5 (R117). -/
theorem test_modifyFlow_range :
    answerOf (after .modifyFlow (waitingPlan 0x0B ([1, 33, 0x00, 0x10, 0, 0, 0, 0, 1] ++ List.replicate 13 0))) = some (.range, [5]) := by
  decide +kernel

/-- A job, step 1: Copy Plan is accepted with phase Map, Progress 0. -/
theorem test_copyPlan :
    (after .copyPlan (waitingPlan 0x0C [1])).plan.job =
      some { kind := .copy, bank := .bankB, transaction := 10, phase := .map, progress := 0 } := by decide +kernel

/-- A job, step 2: an item's completion inserts the lowest label. -/
theorem test_copy_item :
    let s := { State.reset with plan := { jobPlan with
      job := some { kind := .copy, bank := .bankB, transaction := 70, phase := .map, progress := 0 } } }
    (after .jobItemCompletion s).plan.bankB.map = [⟨0x0100, 12⟩] := by decide +kernel

/-- A job, step 10: the fourth entry fails with DanglingFlow, and the failing item is counted. -/
theorem test_check_item_fails :
    let job : Job := { kind := .check, bank := .bankB, transaction := 74, phase := .map, progress := 3 }
    let s := { State.reset with plan := { PlanStore.powerUp with
      bankB := { BankContents.powerUp false with map := [⟨0x0100, 12⟩, ⟨0x0200, 40⟩, ⟨0x0300, 30⟩, ⟨0x0400, 33⟩] }, job := some job } }
    let t := after .jobItemCompletion s
    t.plan.job = none ∧ t.reports.map ReportRecord.first =
      [.jobDone { job := { job with progress := 4 }, result := .failed (.danglingFlow 0x0400) }] := by decide +kernel

/-- Check Plan of an empty map begins with the descriptors (R121; log 14). -/
theorem test_checkPlan : ((after .checkPlan (waitingPlan 0x0D [1])).plan.job.map (fun j => (j.phase, j.progress))) = some (.flows, 0) := by
  decide +kernel

/-- Swap Plan to a bank that is not Ready (R128). -/
theorem test_swapPlan_notReady : answerOf (after .swapPlan (waitingPlan 0x0E [1])) = some (.notReady, []) := by decide +kernel

/-- Abort Job with an empty slot (R126). -/
theorem test_abortJob_noJob : answerOf (after .abortJob (waiting 0x0F [])) = some (.noJob, []) := by decide +kernel

/-- Read Pacing of flow 33 with Q queued at tick 0 and Credit 3: the head's age is 0. -/
theorem test_readPacing :
    let s := pacing 33 credit33 [queued 33 600 0] (some { generation := 9, counters := .credit 3 })
    answerOf (after .readPacing (waitingIn s (command 0x10 [33]))) =
      some (.done, [1, 1, 1, 0, 0, 0, 0, 1, 9, 2, 0, 3, 0, 0, 0, 0, 0, 0, 0, 0, 0, 0]) := by decide +kernel

/-- Flush Flow discards one frame and says so (R72). -/
theorem test_flushFlow :
    let s := pacing 33 credit33 [queued 33 600 0] none
    let t := after .flushFlow (waitingIn s (command 0x11 [33]))
    answerOf t = some (.done, [1]) ∧ t.pacing.queues[33] = [] := by decide +kernel

/-- Restart Traffic reserves its Outbox place and gives no answer yet (R146). -/
theorem test_restartTraffic :
    let t := after .restartTraffic (waiting 0x12 [])
    t.agent.outbox = [.reserved] ∧ t.agent.execution = .restarting 10 false false false := by decide +kernel

/-- When the last block has taken it, the Done response is ready (R147). -/
theorem test_restartTraffic_completion :
    let t := after .restartTrafficCompletion (restarting State.reset true true true)
    answerOf t = some (.done, []) ∧ t.agent.execution = .free := by decide +kernel

/-- Flow 40 with Sent 17 and StaleDiscards 2 (09 section 9.2, a clear against an increment). -/
def counted40 : State :=
  { State.reset with counters := (CounterBank.powerUp.addFlow 40 .sent 17).addFlow 40 .staleDiscards 2 }

theorem test_readCounters : answerOf (after .readCounters (waitingIn counted40 (command 0x13 [1, 40, 1]))) =
    some (.done, [1, 40, 1] ++ be32 0 ++ be32 17 ++ be32 0 ++ be32 2 ++ be32 0 ++ be32 0) := by decide +kernel

theorem test_readAndClear :
    let t := after .readAndClearCounters (waitingIn counted40 (command 0x14 [1, 40, 1]))
    (answerOf t).map (fun x => x.2.length) = some 27 ∧ t.counters.readFlow 40 .sent = 0 := by decide +kernel

/-- A counter at its largest value stays (R164). -/
theorem test_counter_saturates : satInc 0xFFFFFFFF = 0xFFFFFFFF ∧ satInc 16 = 17 := by decide

/-- An unknown code is Malformed and echoed (R140). -/
theorem test_malformed : answerOf (after .malformedCommand (waiting 0x15 [])) = some (.malformed, []) := by decide +kernel

/-- Gathering and Report Enable, step 3: the second CheckError is gathered, its First Detail kept (09 section 9.3). -/
theorem test_report_gathers :
    let s := { State.reset with
      pacing := { PacingUnit.powerUp with tickCounter := 503 },
      reports := [{ first := .checkError 0x0200, occurrences := 1, latestTick := 500 }] }
    (s.post (.checkError 0x0300)).reports = [{ first := .checkError 0x0200, occurrences := 2, latestTick := 503 }] := by decide +kernel

/-! ## Witnesses: a state and operands that meet the hypotheses of each statement, clause by clause -/

/-- A command built for a code may be begun and is of that code, in any state it waits in. -/
theorem begins_waitingIn (s : State) (code : Byte) (ops : List Byte) (lengths : List Nat) (h : ops.length ∈ lengths) :
    (waitingIn s (command code ops)).Begins code lengths (command code ops) :=
  ⟨⟨rfl, rfl, rfl, by simp [waitingIn]⟩, fun l hl => by simp [waitingIn] at hl, rfl, rfl,
    by simpa [command, InboxEntry.operandLength] using h⟩

/-- A frame in reception of this many bytes, with this classification. -/
def inReception (state : LineInState) (count : Nat) (c : Option Classification) : State := receiving (receiver state count) c

/-- The same with a partial chain. -/
def inReceptionWith (count : Nat) (f : Flow) (cls : ReserveClass) (chain : List BlockNo) (free : List BlockNo) : State :=
  { receiving { receiver .keep count with record := some { flow := f, reserveClass := cls, chain := chain } } (some (forwarded f cls)) with
    store := { mem := [], free := free } }

/-- StepRunsTheFrontCommand: two commands wait; none waits. -/
theorem witness_StepRunsTheFrontCommand :
    (∃ c rest, ({ State.reset with pending := [.lineInComesUp, .tickExpiry] } : State).pending = c :: rest) ∧
      State.reset.pending = [] := ⟨⟨_, _, rfl⟩, rfl⟩

/-- LineInStartDelimiterBeginsAFrame: Idle, in a frame, Down. -/
theorem witness_LineInStartDelimiterBeginsAFrame :
    (receiving (LineInReceiver.empty .idle) none).lineIn.state = .idle ∧
      (inReception .header 3 none).lineIn.state.inFrame = true ∧ State.reset.lineIn.state = .down := ⟨rfl, rfl, rfl⟩

/-- ReportsJoinTheFrameInReception: Drain with a full hold-back and header, Header before its fourth byte with short ones, Idle, Down. -/
theorem witness_ReportsJoinTheFrameInReception :
    ((inReception .drain 1028 none).lineIn.state = .drain ∧ (inReception .drain 1028 none).lineIn.holdBack = 1 :: [2, 3, 4]) ∧
      (let r := received [1, 2]
       r.state = .header ∧ r.byteCount + 1 ≠ 4 ∧ r.holdBack.length < 4) ∧
      ((received [1, 2]).header.length < 4 ∧ ¬ (inReception .drain 1028 none).lineIn.header.length < 4) ∧
      (receiving (LineInReceiver.empty .idle) none).lineIn.state = .idle ∧ State.reset.lineIn.state = .down := by decide +kernel

/-- HoldBackHoldsTheFrameCheck: eight bytes and their frame check, whose check is good, and is not once the frame is marked bad. -/
theorem witness_HoldBackHoldsTheFrameCheck :
    received goodBytes = goodBytes.foldl LineInReceiver.take (LineInReceiver.empty .header) ∧ (received goodBytes).checkGood = true ∧
      { received goodBytes with bad := true }.checkGood = false := by
  decide +kernel

/-- ManagementHeaderTakesAnInboxPlace: three places taken, and four. -/
theorem witness_ManagementHeaderTakesAnInboxPlace :
    let full : List InboxEntry → State := fun q =>
      { receiving (received [0xFF, 0xF0, 0x00]) none with agent := { State.reset.agent with inbox := q } }
    let three := full [command 1 [], command 2 [], command 4 []]
    let four := full [command 1 [], command 2 [], command 4 [], command 15 []]
    (three.lineIn.state = .header ∧ three.lineIn.byteCount = 3 ∧ (three.lineIn.take 0).label = three.settings.managementLabel ∧
        three.agent.inbox.length < 4) ∧
      (four.lineIn.state = .header ∧ four.lineIn.byteCount = 3 ∧ (four.lineIn.take 0).label = four.settings.managementLabel ∧
        ¬ four.agent.inbox.length < 4) := by decide +kernel

/-- ForwardHeaderIsClassified: a mapped label, an unmapped one that is discarded, and one sent to a Present Default Flow. -/
theorem witness_ForwardHeaderIsClassified :
    let s : State := { receiving (received [0x01, 0x00, 0x00]) none with plan := planned [⟨0x0100, 12⟩] 12 Descriptor.powerUp }
    let u : State := { receiving (received [0x02, 0x00, 0x00]) none with plan := planned [⟨0x0100, 12⟩] 12 Descriptor.powerUp }
    let d : State := { u with agent := { u.agent with settings :=
      { u.agent.settings with unmappedPolicy := .defaultFlow, defaultFlow := 12 } } }
    (s.lineIn.state = .header ∧ s.lineIn.byteCount = 3 ∧ (s.lineIn.take 0).label ≠ s.settings.managementLabel ∧
        mapSorted s.plan.activeBank.map = true ∧ MapEntry.mk (s.lineIn.take 0).label 12 ∈ s.plan.activeBank.map) ∧
      (u.lineIn.state = .header ∧ u.lineIn.byteCount = 3 ∧ (u.lineIn.take 0).label ≠ u.settings.managementLabel ∧
        mapSorted u.plan.activeBank.map = true ∧ (∀ e ∈ u.plan.activeBank.map, e.label ≠ (u.lineIn.take 0).label)) ∧
      (d.lineIn.state = .header ∧ (∀ e ∈ d.plan.activeBank.map, e.label ≠ (d.lineIn.take 0).label) ∧
        d.settings.unmappedPolicy = .defaultFlow ∧ (d.plan.activeBank.flows[d.settings.defaultFlow]).present = true) := by
  decide +kernel

/-- PresentedByteIsStored: forward bytes 5 and 1023, forward byte 3, management bytes 0 and 255. -/
theorem witness_PresentedByteIsStored :
    let s := inReceptionWith 9 12 .class0 [7] []
    let t := inReceptionWith 1027 12 .class0 (List.replicate 16 7) []
    let h := inReception .keep 7 (some (forwarded 12 .class0))
    let m := inReception .keep 4 (some managed)
    let n := inReception .keep 259 (some managed)
    (s.lineIn.state = .keep ∧ s.lineIn.holdBack = [1, 2, 3, 4] ∧ s.classifier = some (forwarded 12 .class0) ∧
        s.lineIn.byteCount = 5 + 4 ∧ (5 : Nat) % 64 ≠ 0 ∧ s.lineIn.chain.getLast? = some 7) ∧
      (t.lineIn.state = .keep ∧ t.lineIn.holdBack = [1, 2, 3, 4] ∧ t.classifier = some (forwarded 12 .class0) ∧
        t.lineIn.byteCount = 1023 + 4 ∧ (1023 : Nat) % 64 ≠ 0 ∧ t.lineIn.chain.getLast? = some 7) ∧
      (h.lineIn.state = .keep ∧ h.lineIn.holdBack = [1, 2, 3, 4] ∧ h.classifier = some (forwarded 12 .class0) ∧
        h.lineIn.byteCount = 3 + 4) ∧
      (m.lineIn.state = .keep ∧ m.lineIn.holdBack = [1, 2, 3, 4] ∧ m.classifier = some managed ∧ m.lineIn.byteCount = 0 + 4) ∧
      (n.lineIn.state = .keep ∧ n.lineIn.holdBack = [1, 2, 3, 4] ∧ n.classifier = some managed ∧ n.lineIn.byteCount = 255 + 4) := by
  decide +kernel

/-- BlockRequestIsGrantedOrTruncates: byte 4 of class 0 with one block free, byte 960 of class 1 with 33 free and a floor of 32; byte 64 of
class 0 with none free, of class 1 with 32 free. -/
theorem witness_BlockRequestIsGrantedOrTruncates :
    let s : State := { inReception .keep 8 (some (forwarded 12 .class0)) with store := { mem := [], free := [9] } }
    let t := inReceptionWith 964 12 .class1 (List.replicate 15 7) (List.replicate 33 9)
    let u := inReceptionWith 68 12 .class0 [7] []
    let v := inReceptionWith 68 12 .class1 [7] (List.replicate 32 9)
    (s.lineIn.state = .keep ∧ s.lineIn.holdBack = [1, 2, 3, 4] ∧ s.lineIn.byteCount = 4 + 4 ∧
        s.classifier = some (forwarded 12 .class0) ∧ s.lineIn.header.length = 4 ∧ s.store.free = 9 :: []) ∧
      (t.lineIn.state = .keep ∧ t.lineIn.holdBack = [1, 2, 3, 4] ∧ t.lineIn.byteCount = 960 + 4 ∧
        t.classifier = some (forwarded 12 .class1) ∧ t.lineIn.header.length = 4 ∧ t.store.free = 9 :: List.replicate 32 9 ∧
        t.settings.reserveFloor.toNat < t.store.free.length) ∧
      (u.lineIn.state = .keep ∧ u.lineIn.holdBack = [1, 2, 3, 4] ∧ u.lineIn.byteCount = 64 + 4 ∧
        u.classifier = some (forwarded 12 .class0) ∧ u.lineIn.header.length = 4 ∧ u.store.free = []) ∧
      (v.lineIn.state = .keep ∧ v.lineIn.byteCount = 64 + 4 ∧ v.classifier = some (forwarded 12 .class1) ∧
        v.lineIn.header.length = 4 ∧ v.store.free.length ≤ v.settings.reserveFloor.toNat) := by decide +kernel

/-- OverLengthFrameGivesUpItsStorage: forward byte 1024, management byte 256. -/
theorem witness_OverLengthFrameGivesUpItsStorage :
    let s := inReceptionWith 1028 12 .class0 (List.replicate 16 7) []
    let m := inReception .keep 260 (some managed)
    (s.lineIn.state = .keep ∧ s.lineIn.holdBack = [1, 2, 3, 4] ∧ s.classifier = some (forwarded 12 .class0) ∧
        s.lineIn.byteCount = 1024 + 4 ∧ (forwarded 12 .class0).kind = .forward 12 .class0) ∧
      (m.lineIn.state = .keep ∧ m.lineIn.holdBack = [1, 2, 3, 4] ∧ m.classifier = some managed ∧ m.lineIn.byteCount = 256 + 4 ∧
        managed.kind = .management) := by decide +kernel

/-- GoodFrameIsKept: a command and a forward frame of 8 bytes, 12 on the line. -/
theorem witness_GoodFrameIsKept :
    let r := { received goodBytes with state := .keep }
    let f := { r with record := some { flow := 12, reserveClass := .class0, chain := [7] } }
    (r.checkGood = true ∧ r.byteCount = 12 ∧ r.truncated = false ∧ r.overLength = false ∧ r.overflowed = false ∧
        r.restarted = false ∧ r.record = none ∧ managed.kind = .management ∧ (receiving r (some managed)).classifier = some managed) ∧
      (f.checkGood = true ∧ f.byteCount = 12 ∧ f.record = some { flow := 12, reserveClass := .class0, chain := [7] } ∧
        (receiving f (some (forwarded 12 .class0))).classifier = some (forwarded 12 .class0)) := by decide +kernel

/-- DiscardedFrameIsCountedOnce, row by row of R98. -/
theorem witness_DiscardedFrameIsCountedOnce :
    let bad : LineInReceiver := { receiver .keep 12 with bad := true }
    let good : LineInReceiver := { received goodBytes with state := .drain }
    let short : LineInReceiver := { received (withFrameCheck [1, 2, 3, 4, 5, 6, 7]) with state := .keep }
    ((inReception .header 3 none).lineIn.state.inFrame = true ∧ (inReception .header 3 none).classifier = none) ∧
      ({ receiver .drain 12 with overflowed := true }.overflowed = true) ∧
      ({ receiver .drain 12 with truncated := true }.truncated = true ∧ (forwarded 12 .class1).kind = .forward 12 .class1) ∧
      ({ receiver .drain 1032 with overLength := true }.overLength = true ∧ 4 ≤ 1032) ∧
      (bad.overLength = false ∧ bad.truncated = false ∧ bad.checkGood = false) ∧
      (short.overLength = false ∧ short.truncated = false ∧ short.checkGood = true ∧ short.byteCount = 11) ∧
      (good.overLength = false ∧ good.truncated = false ∧ good.checkGood = true ∧ good.byteCount = 12 ∧
        Classification.kind { label := 0x0200, kind := .unmapped, inboxPlace := false } = .unmapped) := by decide +kernel

/-- LineInComesUpAndGoesDown: Down; Up with a truncated forward frame in reception. -/
theorem witness_LineInComesUpAndGoesDown :
    State.reset.lineIn.state = .down ∧
      (receiving { receiver .drain 12 with truncated := true } (some (forwarded 12 .class1))).lineIn.state ≠ .down := by decide +kernel

/-- RestartDiscardsTheForwardFrameInReception: a forward frame in Keep; a management frame. -/
theorem witness_RestartDiscardsTheForwardFrameInReception :
    let s := restarting (inReceptionWith 12 12 .class1 [7] []) false true true
    let m := restarting (inReception .keep 12 (some managed)) false false false
    (s.agent.execution = .restarting 5 false true true ∧ s.lineIn.restarted = false ∧
        s.classifier = some { label := 0x0100, kind := .forward 12 .class1, inboxPlace := false }) ∧
      (m.agent.execution = .restarting 5 false false false ∧
        ∀ label f cls place, m.classifier ≠ some { label := label, kind := .forward f cls, inboxPlace := place }) :=
  ⟨⟨rfl, rfl, rfl⟩, rfl, fun _ _ _ _ h => by simp [restarting, inReception, receiving, managed] at h⟩

/-- HoldSymbolReplacesTheMask: halves that are no complements; a mask unchanged; a mask changed on a line that is Up. -/
theorem witness_HoldSymbolReplacesTheMask :
    let s := sending EgressScheduler.powerUp
    (0x44#8).extractLsb' 4 4 ≠ ~~~ ((0x44#8).extractLsb' 0 4) ∧ 0xB4#8 = ~~~ 4#4 ++ 4#4 ∧ 0xF0#8 = ~~~ 0#4 ++ 0#4 ∧
      s.lineOut.holdMask = 0#4 ∧ s.lineOut.state ≠ .down ∧ s.lineOut.holdMask ≠ 4#4 := by decide +kernel

/-- ReturnStartTakesAPlaceOrIsRefused: Down, Up and idle, Up and storing. -/
theorem witness_ReturnStartTakesAPlaceOrIsRefused :
    State.reset.lineOut.state = .down ∧ (sending EgressScheduler.powerUp).lineOut.state ≠ .down ∧
      ({ State.reset with lineOut := { state := .storing, holdMask := 0 } } : State).lineOut.state = .storing := by decide +kernel

/-- A return frame of this many bytes being stored behind a complete one. -/
def storing (n : Nat) : State :=
  { State.reset with lineOut := { state := .storing, holdMask := 0 },
                     merge := { buffer := [⟨true, [1]⟩, ⟨false, List.replicate n 0⟩], lastServed := .agentSide, transmitter := .down } }

/-- ReturnByteIsStored: byte number 1027 stored, byte number 1028 refused, and a line that is not storing. -/
theorem witness_ReturnByteIsStored :
    State.reset.lineOut.state ≠ .storing ∧
      ∀ n ∈ [1027, 1028], (storing n).lineOut.state = .storing ∧
        (storing n).merge.buffer = [⟨true, [1]⟩] ++ [{ complete := false, bytes := List.replicate n 0 }] ∧
        ∀ e ∈ [ReturnEntry.mk true [1]], e.complete = true :=
  ⟨by decide +kernel, fun _ _ => ⟨rfl, rfl, by decide⟩⟩

/-- ReturnFrameIsKeptOrGivenUp: Idle, Draining, and Storing with 11 and with 12 bytes. -/
theorem witness_ReturnFrameIsKeptOrGivenUp :
    (sending EgressScheduler.powerUp).lineOut.state = .idle ∧
      ({ State.reset with lineOut := { state := .draining, holdMask := 0 } } : State).lineOut.state = .draining ∧
      ∀ n ∈ [11, 12], (storing n).lineOut.state = .storing ∧
        (storing n).merge.buffer = [⟨true, [1]⟩] ++ [{ complete := false, bytes := List.replicate n 0 }] ∧
        ∀ e ∈ [ReturnEntry.mk true [1]], e.complete = true :=
  ⟨rfl, rfl, fun _ _ => ⟨rfl, rfl, by decide⟩⟩

/-- LineOutComesUpAndGoesDown: Down with the Stream Reset pending; Up. -/
theorem witness_LineOutComesUpAndGoesDown :
    (State.reset.lineOut.state = .down ∧ State.reset.egress.streamReset = true ∧ State.reset.egress.inFlight = none) ∧
      (sending EgressScheduler.powerUp).lineOut.state ≠ .down := by decide +kernel

/-- A frame of level 3 and four segments, and its scheduler with segment `k` in flight. -/
def frame3 : ReleasedFrame := released 40 3 230 [0, 1, 2, 3] true false

def sendingSegment (k : Nat) : State :=
  sending (scheduler [] (some (sent frame3 k)) (some (segmentOf (sent frame3 k))) [])

/-- SegmentCompletionAdvancesSendsOrDrops: segments 0, 2 and 3 of four, Drop-marked or not; nothing in flight. -/
theorem witness_SegmentCompletionAdvancesSendsOrDrops :
    (∀ k ∈ [0, 2, 3], ∃ g, (sendingSegment k).egress.inFlight = some (.segment g) ∧
        (sendingSegment k).egress.current = some (sent frame3 k) ∧ (sendingSegment k).egress.dropMark = false ∧
        g.position = if k = 0 then .first else if k = 2 then .middle else .last) ∧
      ({ scheduler [] (some (sent frame3 0)) (some (segmentOf (sent frame3 0))) [] with dropMark := true }.dropMark = true) ∧
      (∀ g, (sending EgressScheduler.powerUp).egress.inFlight ≠ some (.segment g)) := by
  refine ⟨?_, rfl, fun g h => by simp [sending, EgressScheduler.powerUp] at h⟩
  intro k hk
  simp at hk
  rcases hk with rfl | rfl | rfl <;> exact ⟨_, rfl, rfl, rfl, rfl⟩

/-- SymbolCompletionLeavesTheCurrentFrame: an Abort and a Stream Reset in flight; a segment in flight. -/
theorem witness_SymbolCompletionLeavesTheCurrentFrame :
    (sending (scheduler [] none (some (.abort 3)) [])).egress.inFlight = some (.abort 3) ∧
      (sending (scheduler [] none (some .streamReset) [])).egress.inFlight = some .streamReset ∧
      (∃ g, (sendingSegment 0).egress.inFlight = some (.segment g)) := ⟨rfl, rfl, _, rfl⟩

/-- A line that is Up and idle, with these lanes and this stack, and the current frame between two of its segments. -/
def deciding (lanes : List ReleasedFrame) (current : Option SentFrame) (stack : List SentFrame) (mask : BitVec 4) : State :=
  { sending (scheduler lanes current none stack) with lineOut := { state := .idle, holdMask := mask } }

/-- ChoiceSendsSymbolsFirst: something in flight; a Stream Reset pending; streams 0 and 3 pending, 0 the lowest, and 3 alone. -/
theorem witness_ChoiceSendsSymbolsFirst :
    (sendingSegment 0).egress.inFlight ≠ none ∧ (sending EgressScheduler.powerUp).egress.inFlight = none ∧
      (sending EgressScheduler.powerUp).lineOut.state ≠ .down ∧ (sending EgressScheduler.powerUp).egress.streamReset = true ∧
      (scheduler [] none none []).streamReset = false ∧
      (held 9#4 0 = true ∧ ∀ k : Level, k < 0 → held 9#4 k = false) ∧
      (held 8#4 3 = true ∧ ∀ k : Level, k < 3 → held 8#4 k = false) := by decide +kernel

/-- ChoiceSuspendsPreemptsOrContinues: level 3 current and held; not held, with a Preempting head of level 0, and of level 2 alone;
and with no newcomer. -/
theorem witness_ChoiceSuspendsPreemptsOrContinues :
    let c := sent frame3 1
    let a := released 9 0 20 [7] true true
    let b := released 21 2 150 [4, 5, 6] true true
    let ok : State → Prop := fun s =>
      s.egress.inFlight = none ∧ s.lineOut.state ≠ .down ∧ s.egress.streamReset = false ∧ s.egress.pendingAborts = 0 ∧
        s.egress.current = some c
    let newcomer : State → Level → Prop := fun s l =>
      l < c.level ∧ held s.lineOut.holdMask l = false ∧ ∃ f rest, s.egress.lanes[l] = f :: rest ∧ f.preempting = true
    (ok (deciding [] (some c) [] 8) ∧ held (deciding [] (some c) [] 8).lineOut.holdMask c.level = true) ∧
      (ok (deciding [a, b] (some c) [] 0) ∧ held (deciding [a, b] (some c) [] 0).lineOut.holdMask c.level = false ∧
        c.preemptible = true ∧ newcomer (deciding [a, b] (some c) [] 0) 0 ∧ (deciding [a, b] (some c) [] 0).egress.lanes[0] = a :: []) ∧
      (ok (deciding [a, b] (some c) [] 1) ∧ newcomer (deciding [a, b] (some c) [] 1) 2 ∧
        (∀ k : Level, k < 2 → ¬ newcomer (deciding [a, b] (some c) [] 1) k)) ∧
      (ok (deciding [] (some c) [] 0) ∧ ∀ l, ¬ newcomer (deciding [] (some c) [] 0) l) := by
  refine ⟨by decide +kernel, ⟨by decide +kernel, by decide +kernel, rfl, ⟨by decide, by decide +kernel, _, _, rfl, rfl⟩, rfl⟩,
    ⟨by decide +kernel, ⟨by decide, by decide +kernel, _, _, rfl, rfl⟩, ?_⟩, by decide +kernel, ?_⟩
  · intro k hk h
    match k, hk with
    | 0, _ => exact absurd h.2.1 (by decide +kernel)
    | 1, _ => obtain ⟨-, -, f, rest, h, -⟩ := h; simp [deciding, sending, scheduler, released] at h
  · intro l h
    obtain ⟨-, -, f, rest, h, -⟩ := h
    simp [deciding, sending, scheduler] at h

/-- ChoiceStartsOrResumes: a head of level 1 above a stack of level 3; a stack whose top is not held, and held; an empty stack. -/
theorem witness_ChoiceStartsOrResumes :
    let a := released 9 1 20 [7] true false
    let t := sent frame3 1
    let ok : State → Prop := fun s =>
      s.egress.inFlight = none ∧ s.lineOut.state ≠ .down ∧ s.egress.streamReset = false ∧ s.egress.pendingAborts = 0 ∧
        s.egress.current = none
    (ok (deciding [a] none [t] 0) ∧ (deciding [a] none [t] 0).egress.stack = t :: [] ∧ (1 : Level) < t.level ∧
        held (deciding [a] none [t] 0).lineOut.holdMask 1 = false ∧ (deciding [a] none [t] 0).egress.lanes[1] = a :: [] ∧
        (deciding [a] none [t] 0).egress.lanes[0] = []) ∧
      (ok (deciding [] none [t] 0) ∧ (∀ l : Level, (deciding [] none [t] 0).egress.lanes[l] = []) ∧
        (deciding [] none [t] 0).egress.stack = t :: []) ∧
      (ok (deciding [a] none [t] 10) ∧ held 10#4 1 = true ∧ held 10#4 t.level = true) ∧
      (ok (deciding [] none [] 0) ∧ (deciding [] none [] 0).egress.stack = []) := by decide +kernel

/-- SegmentsCarryTheWholeFrame: frames of 1 and of 1024 bytes. -/
theorem witness_SegmentsCarryTheWholeFrame :
    (0 < (released 9 1 1 [7] true false).length ∧ (released 9 1 1 [7] true false).chain.length = blocksOf 1) ∧
      (released 9 1 1024 (List.replicate 16 7) true false).chain.length = blocksOf 1024 := by decide

/-- StallExpiryGivesThePartialFrameUp: a timer not ended; ended with the frame in the middle of the stack; with it in the slot, its
segment or a symbol in flight. -/
theorem witness_StallExpiryGivesThePartialFrameUp :
    let f := sent (released 51 2 150 [4, 5, 6] true true) 1
    let a := sent (released 14 1 150 [7, 8, 9] true true) 1
    let ended : Vector StallTimer 4 := #v[.stopped, .stopped, .ended, .stopped]
    let stacked : EgressScheduler := { scheduler [] none (some (.abort 0)) [a, f, sent frame3 1] with timers := ended }
    let slot : InFlight → EgressScheduler := fun x => { scheduler [] (some f) (some x) [sent frame3 1] with timers := ended }
    (State.reset.egress.timers[2] ≠ .ended) ∧
      (stacked.timers[2] = .ended ∧ stacked.stack = [a] ++ f :: [sent frame3 1] ∧ f.level = 2 ∧
        ∀ x ∈ [a] ++ [sent frame3 1], x.level ≠ 2) ∧
      ((slot (segmentOf f)).timers[2] = .ended ∧ (slot (segmentOf f)).current = some f ∧ (slot (segmentOf f)).dropMark = false ∧
        (∀ x ∈ (slot (segmentOf f)).stack, x.level ≠ 2) ∧
        ∃ g, (slot (segmentOf f)).inFlight = some (.segment g) ∧ g.position = .middle) ∧
      ((slot .streamReset).timers[2] = .ended ∧ (slot .streamReset).inFlight = some .streamReset) :=
  ⟨by decide +kernel, by decide +kernel, ⟨rfl, rfl, rfl, by decide +kernel, _, rfl, rfl⟩, rfl, rfl⟩

/-- RestartDiscardsLanesAndPartialFrames: something in flight with no current frame, with a final segment, with a middle segment, with a
symbol; nothing in flight. -/
theorem witness_RestartDiscardsLanesAndPartialFrames :
    (∀ s, (restarting s true true false).agent.execution = .restarting 5 true true false) ∧
      ((sending (scheduler [] none (some .streamReset) [])).egress.inFlight ≠ none ∧
        (sending (scheduler [] none (some .streamReset) [])).egress.current = none) ∧
      ((sendingSegment 3).egress.inFlight ≠ none ∧ (sendingSegment 3).egress.finalInFlight = true) ∧
      ((sendingSegment 1).egress.current = some (sent frame3 1) ∧ (sendingSegment 1).egress.dropMark = false ∧
        ∃ g, (sendingSegment 1).egress.inFlight = some (.segment g) ∧ g.position = .middle) ∧
      (let s := sending (scheduler [] (some (sent frame3 1)) (some (.abort 0)) [])
       s.egress.current = some (sent frame3 1) ∧ s.egress.dropMark = false ∧ ∃ k, s.egress.inFlight = some (.abort k)) ∧
      ((deciding [] none [sent frame3 1] 8).egress.inFlight = none ∧ (deciding [] none [sent frame3 1] 8).egress.current = none) :=
  ⟨fun _ => rfl, ⟨by decide +kernel, rfl⟩, ⟨by decide +kernel, rfl⟩, ⟨rfl, rfl, _, rfl, rfl⟩, ⟨rfl, rfl, _, rfl⟩, rfl, rfl⟩

/-- A descriptor in Interval mode with Interval 3. -/
def interval3 : Descriptor := { Descriptor.powerUp with mode := .interval, param1 := 3 }

/-- The gated descriptor with this Burst. -/
def gateBurst (burst : Word16) : Descriptor := { gate8 with param3 := burst }

/-- ModesLimitWhatAnEvaluationReleases: each mode's counters, the open gate with a Burst of 0 and of 255. -/
theorem witness_ModesLimitWhatAnEvaluationReleases :
    Descriptor.powerUp.countersOf none = .openMode ∧
      interval3.countersOf (some { generation := 0, counters := .interval 0 }) = .interval 0 ∧
      interval3.countersOf (some { generation := 0, counters := .interval 1 }) = .interval 1 ∧
      credit33.countersOf (some { generation := 9, counters := .credit 16 }) = .credit 16 ∧
      ((gateBurst 0).countersOf (some { generation := 0, counters := .gate .opened 2 1 }) = .gate .opened 2 1 ∧ (gateBurst 0).param3 = 0) ∧
      ((gateBurst 255).countersOf (some { generation := 0, counters := .gate .opened 2 1 }) = .gate .opened 2 1 ∧
        (gateBurst 255).param3.toNat ≤ 255) ∧
      gate8.countersOf (some { generation := 0, counters := .gate .shut 1 2 }) = .gate .shut 1 2 ∧
      tiered6.countersOf (some { generation := 0, counters := .tiered 3 1 2 4 }) = .tiered 3 1 2 4 := by
  refine ⟨rfl, ?_, ?_, ?_, ⟨?_, rfl⟩, ⟨?_, by decide⟩, ?_, ?_⟩ <;> decide

/-- ModesLimitWhatAnEvaluationReleases, its clauses on a head that is left: after the one release of an Interval flow, with a Credit of 3
blocks before a frame of 10, with a Burst of 2 used, and with a window's quota of 2 used. -/
theorem witness_ModesLimitWhatAnEvaluationReleases_left :
    let two : Flow → List QueuedFrame := fun f => [queued f 40 0, queued f 41 0]
    (interval3.evaluate 1 0 5 (some { generation := 0, counters := .interval 0 }) (two 5)).queue ≠ [] ∧
      (credit33.evaluate 1 0 33 (some { generation := 9, counters := .credit 3 }) [queued 33 600 0]).queue = queued 33 600 0 :: [] ∧
      (gate8.evaluate 1 0 8 (some { generation := 0, counters := .gate .opened 0 1 }) (two 8)).queue ≠ [] ∧
      (tiered6.evaluate 1 0 6 (some { generation := 0, counters := .tiered 3 1 2 3 }) (two 6)).queue ≠ [] := by decide +kernel

/-- EvaluationReleasesInQueueOrder: a head the mode does not allow is left, however old, and an Interval flow has released one; a stale
head and the one behind it are passed, with Credit for both. -/
theorem witness_EvaluationReleasesInQueueOrder :
    (let r := credit33.evaluate 1 0 33 (some { generation := 9, counters := .credit 3 }) [queued 33 600 0]
     r.queue = queued 33 600 0 :: [] ∧ r.released = []) ∧
      (let d : Descriptor := { Descriptor.powerUp with mode := .interval, param1 := 3 }
       let r := d.evaluate 1 0 5 none [queued 5 40 0, queued 5 41 0]
       r.queue = queued 5 41 0 :: [] ∧ r.released.length = 1 ∧ r.counters = .interval 3) ∧
      (let d : Descriptor := { credit33 with maxResidence := 2 }
       let c : PacingContext := { generation := 9, counters := .credit 3 }
       (d.evaluate 9 0 33 (some c) [queued 33 600 0]).stale = [] ∧
         (d.evaluate 9 0 33 (some c) ([queued 33 40 0] ++ queued 33 130 9 :: [])).queue = [] ∧
         (d.evaluate 9 0 33 (some c) [queued 33 40 0]).stale = [queued 33 40 0]) := by decide +kernel

/-- TicksAdvanceThePacingCounters: a Credit at the Ceiling; phases and windows of one tick and more; a last window of an epoch; and
Positions, a Tick-in-Window and a Window-in-Epoch past their bounds. -/
theorem witness_TicksAdvanceThePacingCounters :
    16 ≤ credit33.param2.toNat ∧ (0 < gate8.param1.toNat ∧ 2 < gate8.param1.toNat) ∧ (0 < gate8.param2.toNat ∧ 1 < gate8.param2.toNat) ∧
      (2 < tiered6.param3.toNat ∧ 3 < tiered6.param1.toNat ∧ 0 < tiered6.param1.toNat ∧ 2 + 1 = tiered6.param3.toNat) ∧
      (1 + 1 < gate8.param1.toNat ∧ gate8.param1.toNat ≤ 5 + 1 ∧ 0 + 1 < gate8.param2.toNat ∧ gate8.param2.toNat ≤ 7 + 1) ∧
      (1 + 2 < tiered6.param1.toNat ∧ tiered6.param1.toNat ≤ 6 + 1 ∧ ¬ tiered6.param1.toNat ≤ 0 + 1 ∧ tiered6.param3.toNat ≤ 4) := by
  decide

/-- ContextIsBuiltForGenerationAndMode: an Absent flow; a context that is none, of another Generation, of another mode; one up to date. -/
theorem witness_ContextIsBuiltForGenerationAndMode :
    Descriptor.powerUp.present = false ∧
      (∀ x ∈ [none, some ⟨8, .credit 3⟩, some ⟨9, .interval 3⟩], ∀ c : PacingContext, x = some c →
        c.generation ≠ credit33.generation ∨ c.counters.mode ≠ credit33.mode) ∧
      { credit33 with present := true }.present = true ∧
      (let c : PacingContext := ⟨9, .credit 17⟩
       c.generation = credit33.generation ∧ c.counters.mode = credit33.mode ∧ credit33.param2.toNat < 17) := by
  refine ⟨rfl, ?_, rfl, by decide⟩
  intro x hx c hc
  subst hc
  simp at hx
  rcases hx with rfl | rfl <;> decide

/-- TickExpirySweepsEveryPresentFlow: a Present flow and an Absent one; line-out Down; line-out Up, nothing in flight and a release. -/
theorem witness_TickExpirySweepsEveryPresentFlow :
    let s := pacing 8 gate8 [queued 8 40 0] none
    let up : State := { s with lineOut := { state := .idle, holdMask := 0 } }
    let d := up.plan.activeBank.flows[(8 : Flow)]
    (s.plan.activeBank.flows[(8 : Flow)]).present = true ∧ (s.plan.activeBank.flows[(9 : Flow)]).present = false ∧
      s.lineOut.state = .down ∧
      (up.egress.inFlight = none ∧ up.lineOut.state ≠ .down ∧ d.present = true ∧
        (d.evaluate (up.pacing.tickCounter + 1) up.draws 8 (d.tickContext up.pacing.contexts[(8 : Flow)])
          up.pacing.queues[(8 : Flow)]).released ≠ []) := by decide +kernel

/-- A request of flow 33 waiting, with this queue. -/
def requesting (d : Descriptor) (present : Bool) (queue : List QueuedFrame) : State :=
  let s := pacing 33 d queue none
  { s with pacing := { s.pacing with requests := [{ flow := if present then 33 else 34, reserveClass := .class1, chain := [1], length := 64 }] } }

/-- AdmissionAppendsOrOverflows: no request; an Absent flow; a Present flow one below its Depth Limit, and at it under both actions. -/
theorem witness_AdmissionAppendsOrOverflows :
    let two := [queued 33 600 0, queued 33 601 0]
    let three := queued 33 599 0 :: two
    let f : Flow → FrameRecord := fun x => { flow := x, reserveClass := .class1, chain := [1], length := 64 }
    let dropNew : Descriptor := { credit33 with overflow := .dropNew }
    State.reset.pacing.requests = [] ∧
      (let s := requesting credit33 false []
       s.pacing.requests = f 34 :: [] ∧ (s.plan.activeBank.flows[(34 : Flow)]).present = false) ∧
      (let s := requesting credit33 true two
       let d := s.plan.activeBank.flows[(33 : Flow)]
       s.pacing.requests = f 33 :: [] ∧ d.present = true ∧ s.pacing.queues[(33 : Flow)].length < d.depthLimit.toNat) ∧
      (let s := requesting credit33 true three
       let d := s.plan.activeBank.flows[(33 : Flow)]
       d.present = true ∧ d.depthLimit.toNat ≤ s.pacing.queues[(33 : Flow)].length ∧ d.overflow = .dropOldest ∧
         s.pacing.queues[(33 : Flow)] = queued 33 599 0 :: two) ∧
      (let s := requesting dropNew true three
       let d := s.plan.activeBank.flows[(33 : Flow)]
       d.present = true ∧ d.depthLimit.toNat ≤ s.pacing.queues[(33 : Flow)].length ∧ d.overflow = .dropNew) := by decide +kernel

/-- AdmissionIsFollowedByOneEvaluation: an evaluation that releases nothing, and one that releases a frame. -/
theorem witness_AdmissionIsFollowedByOneEvaluation :
    (let s := pacing 33 credit33 [] none
     ((s.plan.activeBank.flows[(33 : Flow)]).evaluate 0 0 33 s.pacing.contexts[(33 : Flow)] s.pacing.queues[(33 : Flow)]).released = []) ∧
      (let s := pacing 33 credit33 [queued 33 1024 0] none
       ((s.plan.activeBank.flows[(33 : Flow)]).evaluate 0 0 33 s.pacing.contexts[(33 : Flow)] s.pacing.queues[(33 : Flow)]).released ≠ []) := by
  decide +kernel

/-- PhasesWindowsAndEpochsEnd: a gate at and before its bounds, a window and an epoch at theirs. -/
theorem witness_PhasesWindowsAndEpochsEnd :
    (let s := pacing 8 gate8 [] (some { generation := 0, counters := .gate .opened 3 1 })
     let d := s.plan.activeBank.flows[(8 : Flow)]
     d.present = true ∧ d.generation = 0 ∧ d.mode = .gate ∧
       s.pacing.contexts[(8 : Flow)] = some { generation := 0, counters := .gate .opened 3 1 } ∧ d.param1.toNat ≤ 3 ∧
       ¬ d.param1.toNat ≤ 2) ∧
      (let s := pacing 8 gate8 [] (some { generation := 0, counters := .gate .shut 2 1 })
       let d := s.plan.activeBank.flows[(8 : Flow)]
       s.pacing.contexts[(8 : Flow)] = some { generation := 0, counters := .gate .shut 2 1 } ∧ d.param2.toNat ≤ 2) ∧
      (let s := pacing 6 tiered6 [] (some { generation := 0, counters := .tiered 4 2 3 3 })
       let d := s.plan.activeBank.flows[(6 : Flow)]
       d.present = true ∧ d.generation = 0 ∧ d.mode = .tiered ∧
         s.pacing.contexts[(6 : Flow)] = some { generation := 0, counters := .tiered 4 2 3 3 } ∧ d.param1.toNat ≤ 4 ∧
         d.param3.toNat ≤ 3) := by decide +kernel

/-- RestartEmptiesQueuesAndContexts: not Restarting, already taken, and to be taken. -/
theorem witness_RestartEmptiesQueuesAndContexts :
    (∀ transaction lineInTaken egressTaken, State.reset.agent.execution ≠ .restarting transaction lineInTaken false egressTaken) ∧
      (∀ transaction lineInTaken egressTaken,
        (restarting State.reset true true false).agent.execution ≠ .restarting transaction lineInTaken false egressTaken) ∧
      (restarting State.reset true false true).agent.execution = .restarting 5 true false true :=
  ⟨fun _ _ _ h => by simp [State.reset, State.powerUp, ManagementAgent.powerUp] at h, fun _ _ _ h => by simp [restarting] at h, rfl⟩

/-! ### The Return Merge and the agent -/

/-- A response of the agent. -/
def aResponse : Response := { label := 0xFFE0, transaction := 20, code := 1, status := .done, repeated := false, results := [] }

/-- Line-in Up, the transmitter free, and these return frames, responses and reports. -/
def merging (buffer : List ReturnEntry) (outbox : List OutboxEntry) (reports : List ReportRecord) (last : Side) : State :=
  { receiving (LineInReceiver.empty .idle) none with
    merge := { buffer := buffer, lastServed := last, transmitter := .free },
    agent := { State.reset.agent with outbox := outbox }, reports := reports }

/-- MergeServesTheSideNotServedLast: Down; nothing waiting; the return side alone; both, the agent side served last; both, the return side
served last; a response alone; a report alone. -/
theorem witness_MergeServesTheSideNotServedLast :
    let report : ReportRecord := { first := .lineState .lineIn, occurrences := 1, latestTick := 0 }
    State.reset.lineIn.state = .down ∧
      ((merging [] [] [] .agentSide).lineIn.state ≠ .down ∧ (merging [] [] [] .agentSide).merge.transmitter = .free ∧
        (¬ ∃ bytes rest, (merging [] [] [] .agentSide).merge.buffer = { complete := true, bytes := bytes } :: rest) ∧
        (¬ ∃ r rest, (merging [] [] [] .agentSide).agent.outbox = .ready r :: rest) ∧ (merging [] [] [] .agentSide).reports = []) ∧
      ((merging [⟨true, [1]⟩] [] [] .returnSide).merge.buffer = { complete := true, bytes := [1] } :: [] ∧
        ¬ ((∃ r rest, (merging [⟨true, [1]⟩] [] [] .returnSide).agent.outbox = .ready r :: rest) ∨
          (merging [⟨true, [1]⟩] [] [] .returnSide).reports ≠ [])) ∧
      (∀ side, (merging [⟨true, [1]⟩] [.ready aResponse] [] side).merge.buffer = { complete := true, bytes := [1] } :: [] ∧
        (merging [⟨true, [1]⟩] [.ready aResponse] [] side).agent.outbox = .ready aResponse :: [] ∧
        (merging [⟨true, [1]⟩] [.ready aResponse] [] side).merge.lastServed = side) ∧
      ((merging [] [.reserved] [report] .agentSide).reports = report :: [] ∧
        (¬ ∃ r rest, (merging [] [.reserved] [report] .agentSide).agent.outbox = .ready r :: rest) ∧
        ¬ ∃ bytes rest, (merging [] [.reserved] [report] .agentSide).merge.buffer = { complete := true, bytes := bytes } :: rest) := by
  refine ⟨rfl, ⟨by decide +kernel, rfl, ?_, ?_, rfl⟩, ⟨rfl, ?_⟩, fun _ => ⟨rfl, rfl, rfl⟩, rfl, ?_, ?_⟩ <;> simp [merging]

/-- TransmissionCompletionFreesThePlace: a return frame and a response on the line; nothing on the line. -/
theorem witness_TransmissionCompletionFreesThePlace :
    (State.setTransmitter (merging [⟨true, [1]⟩] [] [] .returnSide) (.busy .returnFrame [1])).merge.transmitter = .busy .returnFrame [1] ∧
      ∀ kind bytes, (merging [] [] [] .agentSide).merge.transmitter ≠ .busy kind bytes := ⟨rfl, fun _ _ h => by simp [merging] at h⟩

/-- No entry of an empty Inbox may begin. -/
theorem nothing_may_begin (x : InboxEntry) : ¬ State.reset.MayBegin x := fun h => by
  simpa [State.reset, State.powerUp, ManagementAgent.powerUp] using h.head

/-- AgentAnswersRepeatsAndMalformedCommands: no entry; an entry that repeats the last transaction; a new one of a wrong length; a code past
the catalogue, code 0, and another Kind, repeated or new. -/
theorem witness_AgentAnswersRepeatsAndMalformedCommands :
    (Instr.identify, 0x01#8, [0]) ∈ catalogue ∧ (∀ x, ¬ State.reset.MayBegin x) ∧
      (let e := command 0x01 []
       let s := waitingIn State.reset e
       let l : LastTransaction := { transaction := 10, code := 0x01, response := aResponse }
       let u : State := { s with agent := { s.agent with last := some l } }
       u.MayBegin e ∧ e.kind = 0x01#8 ∧ e.code = 0x01 ∧ u.agent.last = some l ∧ l.transaction = e.transaction ∧ l.code = e.code) ∧
      (let e := command 0x01 [7]
       (waitingIn State.reset e).MayBegin e ∧ (waitingIn State.reset e).Fresh e ∧ e.kind = 0x01#8 ∧ e.code = 0x01 ∧
         e.operandLength ∉ [0]) ∧
      (∀ e ∈ [command 0x15 [], command 0x00 [], { complete := true, bytes := [0xFF, 0xF0, 0, 0, 2, 0, 10, 1] }],
        (waitingIn State.reset e).MayBegin e ∧ (waitingIn State.reset e).Fresh e ∧
          (e.kind ≠ 0x01#8 ∨ e.code = 0 ∨ 0x14 < e.code.toNat)) := by
  refine ⟨by decide, nothing_may_begin, ⟨⟨rfl, rfl, rfl, by decide⟩, rfl, rfl, rfl, rfl, rfl⟩,
    ⟨⟨rfl, rfl, rfl, by decide⟩, fun l hl => by simp [waitingIn] at hl, rfl, rfl, by decide⟩, ?_⟩
  intro e he
  simp at he
  rcases he with rfl | rfl | rfl <;>
    exact ⟨⟨rfl, rfl, rfl, by decide⟩, fun l hl => by simp [waitingIn] at hl, by decide⟩

/-- ReadCommandsReportThePart: Identify, Read Settings and Read Status begin, with the stack and the Report Queue in their bounds. -/
theorem witness_ReadCommandsReportThePart :
    (waiting 0x01 []).Begins 0x01 [0] (command 0x01 []) ∧ (waiting 0x02 []).Begins 0x02 [0] (command 0x02 []) ∧
      (waiting 0x04 []).Begins 0x04 [0] (command 0x04 []) ∧ (waiting 0x04 []).egress.stack.length ≤ 4 ∧
      (waiting 0x04 []).reports.length ≤ 7 :=
  ⟨begins_waitingIn _ _ _ _ (by decide), begins_waitingIn _ _ _ _ (by decide), begins_waitingIn _ _ _ _ (by decide), by decide, by decide⟩

/-- The operands of Write Settings with this Management Label, Tick Period, floor, policy, Default Flow and Report Enable. -/
def settingsOperands (label : Byte) (tickHigh tickLow floor policy flow enable : Byte) : List Byte :=
  [0xFF, label, 0x7E, 0x03, tickHigh, tickLow, floor, 0x13, 0x88, policy, flow, enable]

/-- WriteSettingsIsJudgedInOrder: Tick Period 0 and 4097, floor 129, policy 2, Report Enable 128; and in range: with a job and a new label;
a label the active map holds; a Default Flow Absent in the active bank, and Present there but Absent in the standby bank; neither. -/
theorem witness_WriteSettingsIsJudgedInOrder :
    (∀ ops ∈ [settingsOperands 0xF0 0x00 0x00 32 0 0 127, settingsOperands 0xF0 0x10 0x01 32 0 0 127,
        settingsOperands 0xF0 0x10 0x00 129 0 0 127, settingsOperands 0xF0 0x10 0x00 128 2 0 127,
        settingsOperands 0xF0 0x10 0x00 128 1 0 128, settingsOperands 0xF0 0x10 0x00 128 1 12 127],
      (waiting 0x03 ops).Begins 0x03 [12] (command 0x03 ops)) ∧
      (operandWord (settingsOperands 0xF0 0 0 32 0 0 127) 4 = 0 ∧
        4096 < (operandWord (settingsOperands 0xF0 0x10 0x01 32 0 0 127) 4).toNat ∧
        128 < (operandByte (settingsOperands 0xF0 0x10 0x00 129 0 0 127) 6).toNat ∧
        1 < (operandByte (settingsOperands 0xF0 0x10 0x00 128 2 0 127) 9).toNat ∧
        128 ≤ (operandByte (settingsOperands 0xF0 0x10 0x00 128 1 0 128) 11).toNat) ∧
      (let ops := settingsOperands 0xF1 0x10 0x00 128 1 12 127
       let job : Job := { kind := .check, bank := .bankB, transaction := 1, phase := .flows, progress := 0 }
       let s : State := { State.reset with plan := { planned [⟨0xFFF1, 12⟩] 12 Descriptor.powerUp with job := some job } }
       let t : State := { State.reset with plan := planned [] 12 Descriptor.powerUp }
       ¬ operandWord ops 4 = 0 ∧ (operandWord ops 4).toNat ≤ 4096 ∧ (operandByte ops 6).toNat ≤ 128 ∧ (operandByte ops 9).toNat ≤ 1 ∧
         (operandByte ops 11).toNat < 128 ∧
         (s.plan.job ≠ none ∧ operandWord ops 0 ≠ s.settings.managementLabel) ∧
         (∃ x ∈ s.plan.activeBank.map, x.label = operandWord ops 0) ∧
         (State.reset.plan.job = none ∧ (State.reset.plan.activeBank.flows[(operandByte ops 10).toFin]).present = false ∧
           State.reset.plan.activeBank.map = []) ∧
         (t.plan.activeBank.map = [] ∧ (t.plan.activeBank.flows[(operandByte ops 10).toFin]).present = true ∧
           ((t.plan.bank t.plan.active.other).flows[(operandByte ops 10).toFin]).present = false)) := by
  refine ⟨?_, by decide +kernel, by decide +kernel⟩
  intro ops hops
  simp only [List.mem_cons, List.not_mem_nil, or_false] at hops
  rcases hops with rfl | rfl | rfl | rfl | rfl | rfl <;> exact begins_waitingIn _ _ _ _ (by decide)

/-- RestartTrafficWaitsForTheThreeBlocks: the command begins; all three have taken it, a ready response before the reserved place; two have;
none runs. -/
theorem witness_RestartTrafficWaitsForTheThreeBlocks :
    (waiting 0x12 []).Begins 0x12 [0] (command 0x12 []) ∧
      (let s := restarting State.reset true true true
       let u : State := { s with agent := { s.agent with outbox := [.ready aResponse, .reserved] } }
       u.agent.execution = .restarting 5 true true true ∧ u.agent.outbox = [.ready aResponse] ++ [.reserved]) ∧
      (∀ transaction, (restarting State.reset true true false).agent.execution ≠ .restarting transaction true true true) ∧
      (∀ transaction p g, (restarting State.reset true true false).agent.execution ≠ .restarting transaction false p g) ∧
      (∀ transaction r p, (restarting State.reset true true true).agent.execution ≠ .restarting transaction r p false) :=
  ⟨begins_waitingIn _ _ _ _ (by decide), ⟨rfl, rfl⟩, fun _ h => by simp [restarting] at h, fun _ _ _ h => by simp [restarting] at h,
    fun _ _ _ h => by simp [restarting] at h⟩

/-! ### The plan commands -/

/-- An operand that is neither bank. -/
theorem two_is_no_bank (rest : List Byte) : ∀ b : Bank, operandByte (2 :: rest) 0 ≠ b.byte := by
  intro b
  cases b <;> simp [operandByte, Bank.byte]

/-- PlanReadsAnswerFromEitherBank: bank 2; a held and a missing label of bank A; a flow of bank B; a listing without and with Previous
Label. -/
theorem witness_PlanReadsAnswerFromEitherBank :
    ((∀ b : Bank, operandByte (command 0x05 [2, 0x02, 0x00]).operands 0 ≠ b.byte) ∧
        (waitingPlan 0x05 [2, 0x02, 0x00]).Begins 0x05 [3] (command 0x05 [2, 0x02, 0x00])) ∧
      (∀ low ∈ [0x00#8, 0x01#8], (waitingPlan 0x05 [0, 0x02, low]).Begins 0x05 [3] (command 0x05 [0, 0x02, low])) ∧
      (mapSorted jobPlan.bankA.map = true ∧ MapEntry.mk (operandWord [0, 0x02, 0x00] 1) 40 ∈ jobPlan.bankA.map ∧
        (∀ x ∈ jobPlan.bankA.map, x.label ≠ operandWord [0, 0x02, 0x01] 1)) ∧
      ((waitingPlan 0x09 [1, 12]).Begins 0x09 [2] (command 0x09 [1, 12]) ∧ operandByte (command 0x09 [1, 12]).operands 0 = Bank.bankB.byte) ∧
      (waitingPlan 0x06 [0]).Begins 0x06 [1, 3] (command 0x06 [0]) ∧
      (waitingPlan 0x06 [0, 0x01, 0x00]).Begins 0x06 [1, 3] (command 0x06 [0, 0x01, 0x00]) :=
  ⟨⟨two_is_no_bank _, begins_waitingIn _ _ _ _ (by decide)⟩, fun _ _ => begins_waitingIn _ _ _ _ (by simp), by decide +kernel,
    ⟨begins_waitingIn _ _ _ _ (by decide), rfl⟩, begins_waitingIn _ _ _ _ (by decide), begins_waitingIn _ _ _ _ (by decide)⟩

/-- BankGuardJudgesFirst: no bank; the active bank; the standby bank with a job running, and with a JobDone record pending. -/
theorem witness_BankGuardJudgesFirst :
    let job : Job := { kind := .copy, bank := .bankB, transaction := 1, phase := .map, progress := 0 }
    let running : State := { State.reset with plan := { PlanStore.powerUp with job := some job } }
    let reported : State := { State.reset with
      reports := [{ first := .jobDone { job := job, result := .aborted }, occurrences := 1, latestTick := 0 }] }
    (∀ s : State, ∀ b ∈ [2#8, 0#8, 1#8], (waitingIn s (command 0x0C [b])).Begins 0x0C [1] (command 0x0C [b])) ∧
      (∀ b : Bank, operandByte (command 0x0C [2]).operands 0 ≠ b.byte) ∧
      operandByte (command 0x0C [0]).operands 0 = State.reset.plan.active.byte ∧
      operandByte (command 0x0C [1]).operands 0 = State.reset.plan.active.other.byte ∧ running.plan.job ≠ none ∧
      (∃ r ∈ reported.reports, r.kind = .jobDone) :=
  ⟨fun _ _ _ => begins_waitingIn _ _ _ _ (by simp), two_is_no_bank _, rfl, rfl, by simp, _, List.mem_singleton.2 rfl, rfl⟩

/-- The plan with these entries in the standby bank. -/
def standbyPlan (map : List MapEntry) : PlanStore :=
  { PlanStore.powerUp with bankB := { BankContents.powerUp false with map := map } }

/-- MapEntriesAreWrittenAndRemovedInPlace: a held label between two others, a new one between two, at the start and at the end; a map of
511 and of 512 entries; a label held and missing. -/
theorem witness_MapEntriesAreWrittenAndRemovedInPlace :
    let m : List MapEntry := [⟨0x0100, 1⟩, ⟨0x0200, 2⟩, ⟨0x0300, 3⟩]
    let s := waitingIn { State.reset with plan := standbyPlan m } (command 0x07 [1, 0x02, 0x00, 9])
    (s.Begins 0x07 [4] (command 0x07 [1, 0x02, 0x00, 9]) ∧ (standbyPlan m).job = none ∧ mapSorted m = true ∧
        (s.plan.bank s.plan.active.other).map = [⟨0x0100, 1⟩] ++ { label := operandWord [1, 0x02, 0x00, 9] 1, flow := 2 } :: [⟨0x0300, 3⟩]) ∧
      (∀ n : Nat, n ≤ 3 → m = m.take n ++ m.drop n) ∧
      ((∀ x ∈ m.take 1, x.label.toNat < 0x0180) ∧ (∀ x ∈ m.drop 1, 0x0180 < x.label.toNat)) ∧
      ((∀ x ∈ m.take 0, x.label.toNat < 0x0080) ∧ (∀ x ∈ m.drop 0, 0x0080 < x.label.toNat)) ∧
      ((∀ x ∈ m.take 3, x.label.toNat < 0x0400) ∧ (∀ x ∈ m.drop 3, 0x0400 < x.label.toNat)) ∧
      (∀ n ∈ [511, 512], mapSorted ((List.range n).map (fun k => MapEntry.mk (BitVec.ofNat 16 k) 0)) = true ∧
        ((List.range n).map (fun k => MapEntry.mk (BitVec.ofNat 16 k) 0)).length = n) ∧
      ((waitingIn s (command 0x08 [1, 0x02, 0x00])).Begins 0x08 [3] (command 0x08 [1, 0x02, 0x00]) ∧
        ∀ x ∈ m, x.label ≠ operandWord [1, 0x02, 0x01] 1) := by
  refine ⟨⟨begins_waitingIn _ _ _ _ (by decide), rfl, by decide, rfl⟩, fun n _ => (List.take_append_drop n _).symm, by decide, by decide,
    by decide, ?_, begins_waitingIn _ _ _ _ (by decide), by decide⟩
  intro n hn
  have hn' : n ≤ 512 := by simp at hn; omega
  refine ⟨?_, by simp⟩
  simp only [mapSorted, decide_eq_true_eq, List.pairwise_map]
  refine List.Pairwise.imp_of_mem ?_ List.pairwise_lt_range
  intro a b ha hb hab
  have ha' := List.mem_range.1 ha
  have hb' := List.mem_range.1 hb
  simp only [BitVec.toNat_ofNat]
  omega

/-- FlowWritesStoreOnlyValidDescriptors: a record whose first field out of range is 0, and 10; a valid one; a Modify Flow with its select
bits below, and with bit 13. -/
theorem witness_FlowWritesStoreOnlyValidDescriptors :
    let record : Byte → Byte → List Byte := fun present overflow => [1, 33, present, 2, 0, 0, 2, 0, 3, 0, 16, 0, 0, 0, 0, 3, overflow, 0, 2, 9]
    let modify : Byte → List Byte := fun select => [1, 33, select, 0x02] ++ (record 1 1).drop 2
    (∀ p q, (waiting 0x0A (record p q)).Begins 0x0A [20] (command 0x0A (record p q)) ∧
        operandByte (command 0x0A (record p q)).operands 0 = (State.reset.plan.active.other).byte) ∧
      (1 < (operandDescriptor (record 2 1) 2).present.toNat) ∧
      ((operandDescriptor (record 1 2) 2).badField = some 10 ∧ 1 < (operandDescriptor (record 1 2) 2).overflow.toNat) ∧
      ((operandDescriptor (record 1 1) 2).badField = none) ∧
      (∀ x, (waiting 0x0B (modify x)).Begins 0x0B [22] (command 0x0B (modify x))) ∧
      (8192 ≤ (operandWord (modify 0x20) 2).toNat ∧ (operandWord (modify 0x1F) 2).toNat < 8192) :=
  ⟨fun _ _ => ⟨begins_waitingIn _ _ _ _ (by simp), rfl⟩, by decide, by decide, by decide,
    fun _ => begins_waitingIn _ _ _ _ (by simp), by decide⟩

/-- JobsStartOnTheStandbyBank: Copy Plan and Check Plan of bank B, no job and no JobDone record. -/
theorem witness_JobsStartOnTheStandbyBank :
    let s := { State.reset with plan := jobPlan }
    ((waitingPlan 0x0C [1]).Begins 0x0C [1] (command 0x0C [1]) ∧ (waitingPlan 0x0D [1]).Begins 0x0D [1] (command 0x0D [1])) ∧
      operandByte (command 0x0C [1]).operands 0 = s.plan.active.other.byte ∧ s.plan.job = none ∧
      (∀ r ∈ s.reports, r.kind ≠ .jobDone) ∧ s.plan.activeBank.map ≠ [] ∧ (s.plan.bank .bankB).map = [] :=
  ⟨⟨begins_waitingIn _ _ _ _ (by decide), begins_waitingIn _ _ _ _ (by decide)⟩, rfl, rfl, fun r h => (List.not_mem_nil h).elim, by decide, rfl⟩

/-- JobItemsCopyOrTestTheBank: no job; the last map item of a copy; its descriptors 0 and 255; a check item that passes, one that dangles, one
with the Management Label; descriptors that pass and the Default Flow that fails. -/
theorem witness_JobItemsCopyOrTestTheBank :
    let source := jobPlan.activeBank
    let copied : List MapEntry := source.map.take 2
    let target : BankContents := { BankContents.powerUp false with
      map := [⟨0x0100, 12⟩, ⟨0x0200, 40⟩, ⟨0xFFF0, 12⟩], flows := source.flows }
    let g : Settings := { State.reset.settings with unmappedPolicy := .defaultFlow, defaultFlow := 255 }
    State.reset.plan.job = none ∧
      (source.map[2]? = some ⟨0x0300, 30⟩ ∧ (∀ y ∈ copied, y.label.toNat < 0x0300) ∧ 2 + 1 = source.map.length) ∧
      ((0 : Nat) = (0 : Flow).val ∧ (255 : Nat) = (255 : Flow).val) ∧
      (target.map[0]? = some ⟨0x0100, 12⟩ ∧ (target.flows[(12 : Flow)]).present = true ∧ (0x0100#16) ≠ g.managementLabel) ∧
      (target.map[1]? = some ⟨0x0200, 40⟩ ∧ (target.flows[(40 : Flow)]).present = false) ∧
      (target.map[2]? = some ⟨0xFFF0, 12⟩ ∧ (target.flows[(12 : Flow)]).present = true ∧ (0xFFF0#16) = g.managementLabel) ∧
      ((255 : Flow) = g.defaultFlow ∧ g.unmappedPolicy = .defaultFlow ∧ (target.flows[(255 : Flow)]).present = false) ∧
      ¬ ((255 : Flow) = State.reset.settings.defaultFlow) := by decide +kernel

/-- AbortEndsTheJobAndSwapFlipsTheBank: no job, a job; no bank, a job running, the active bank, the standby bank not Ready and Ready. -/
theorem witness_AbortEndsTheJobAndSwapFlipsTheBank :
    let job : Job := { kind := .copy, bank := .bankB, transaction := 1, phase := .map, progress := 0 }
    let running : State := { State.reset with plan := { PlanStore.powerUp with job := some job } }
    let ready : State := { State.reset with plan := { PlanStore.powerUp with bankB := BankContents.powerUp true } }
    ((∀ s : State, (waitingIn s (command 0x0F [])).Begins 0x0F [0] (command 0x0F [])) ∧ State.reset.plan.job = none ∧
        running.plan.job = some job) ∧
      (∀ s : State, ∀ b ∈ [2#8, 0#8, 1#8], (waitingIn s (command 0x0E [b])).Begins 0x0E [1] (command 0x0E [b])) ∧
      (∀ b : Bank, operandByte (command 0x0E [2]).operands 0 ≠ b.byte) ∧
      (operandByte (command 0x0E [0]).operands 0 = Bank.bankA.byte ∧ Bank.bankA = State.reset.plan.active) ∧
      (operandByte (command 0x0E [1]).operands 0 = Bank.bankB.byte ∧ Bank.bankB ≠ State.reset.plan.active ∧
        (State.reset.plan.bank .bankB).ready = false ∧ (ready.plan.bank .bankB).ready = true ∧ ready.plan.job = none) :=
  ⟨⟨fun _ => begins_waitingIn _ _ _ _ (by decide), rfl, rfl⟩, fun _ _ _ => begins_waitingIn _ _ _ _ (by simp), two_is_no_bank _,
    ⟨rfl, rfl⟩, rfl, by decide, rfl, rfl, rfl⟩

/-- FlushEmptiesAndReadPacingReportsOneFlow: both commands of flow 33, in any state. -/
theorem witness_FlushEmptiesAndReadPacingReportsOneFlow (s : State) :
    (waitingIn s (command 0x11 [33])).Begins 0x11 [1] (command 0x11 [33]) ∧
      (waitingIn s (command 0x10 [33])).Begins 0x10 [1] (command 0x10 [33]) :=
  ⟨begins_waitingIn _ _ _ _ (by decide), begins_waitingIn _ _ _ _ (by decide)⟩

/-- CounterCommandsReadAndClearARange: all 14 global counters; the last 8 flows; a range past the end; group 2. -/
theorem witness_CounterCommandsReadAndClearARange (s : State) :
    (∀ ops ∈ [[0#8, 0#8, 14#8], [1#8, 248#8, 8#8], [1#8, 249#8, 8#8], [2#8, 0#8, 1#8]],
      (waitingIn s (command 0x13 ops)).Begins 0x13 [3] (command 0x13 ops) ∧
        (waitingIn s (command 0x14 ops)).Begins 0x14 [3] (command 0x14 ops)) ∧
      (0 ≤ 13 ∧ 1 ≤ 14 ∧ 14 ≤ 14 ∧ 0 + 14 ≤ 14) ∧ (1 ≤ 8 ∧ 8 ≤ 8 ∧ 248 + 8 ≤ 256) ∧ ¬ (249 + 8 ≤ 256) ∧ (2#8 ≠ 0 ∧ 2#8 ≠ 1) := by
  refine ⟨?_, by decide⟩
  intro ops hops
  simp only [List.mem_cons, List.not_mem_nil, or_false] at hops
  rcases hops with rfl | rfl | rfl | rfl <;> exact ⟨begins_waitingIn _ _ _ _ (by decide), begins_waitingIn _ _ _ _ (by decide)⟩

/-- CountersSaturateAndPostingsGather: a kind disabled and enabled, no record of it, and one between two others. -/
theorem witness_CountersSaturateAndPostingsGather :
    let r : Detail → ReportRecord := fun d => { first := d, occurrences := 1, latestTick := 0 }
    let three := [r .inboxOverflow, r (.checkError 0x0200), r (.lineState .lineIn)]
    (0x6F#7).getLsbD (Detail.checkError 0x0300).kind.index.val = false ∧
      State.reset.settings.reportEnable.getLsbD (Detail.checkError 0x0300).kind.index.val = true ∧
      (∀ x ∈ State.reset.reports, x.kind ≠ (Detail.checkError 0x0300).kind) ∧
      three = [r .inboxOverflow] ++ r (.checkError 0x0200) :: [r (.lineState .lineIn)] ∧
      (r (.checkError 0x0200)).kind = (Detail.checkError 0x0300).kind ∧
      ∀ x ∈ [r .inboxOverflow] ++ [r (.lineState .lineIn)], x.kind ≠ (Detail.checkError 0x0300).kind := by decide +kernel

/-! ### The laws that every step keeps: a state in mid-work that meets each, and a step of it that answers next -/

/-- The part after power-up with station 3, one command waiting. -/
def station3 (c : Instr) : State := { State.powerUp 3 with pending := [c] }

/-- StepKeepsReceptionLaw: a Management frame in Keep with its Inbox place, behind a complete command. -/
def keeping (c : Instr) : State :=
  { receiving (receiver .keep 9) (some managed) with
    pending := [c],
    agent := { State.reset.agent with inbox := [command 1 [], { complete := false, bytes := [1, 2, 3, 4, 5] }] } }

/-- That state meets the laws of reception. -/
theorem keeping_law (c : Instr) : (keeping c).ReceptionLaw where
  inboxBound := (by decide : 2 ≤ 4)
  inboxTail := fun e h => by simp [keeping, receiving, command] at h; simp [h]
  inboxPlace := fun _ => ⟨rfl, rfl, rfl, rfl, 0xFFF0, rfl⟩
  classified := ⟨fun _ => .inl rfl, fun _ => rfl⟩
  record := fun r h => by simp [keeping, receiving, receiver, LineInReceiver.empty] at h
  heldBack := rfl
  counted := ⟨fun h => by simp [keeping, receiving, receiver, LineInReceiver.empty] at h, fun _ => (by decide : 4 ≤ 9)⟩
  unmarked := fun h => by simp [keeping, receiving, receiver, LineInReceiver.empty] at h
  partialChain := fun _ _ _ _ h => by simp [keeping, receiving, managed] at h
  requestsFit := fun _ h => by simp [keeping, receiving, State.reset, State.powerUp, PacingUnit.powerUp] at h
  queuesFit := fun _ _ h => by simp [keeping, receiving, State.reset, State.powerUp, PacingUnit.powerUp] at h
  lanesFit := fun _ _ h => by simp [keeping, receiving, State.reset, State.powerUp, EgressScheduler.powerUp] at h
  currentFits := fun _ h => by simp [keeping, receiving, State.reset, State.powerUp, EgressScheduler.powerUp] at h
  stackFits := fun _ h => by simp [keeping, receiving, State.reset, State.powerUp, EgressScheduler.powerUp] at h

theorem witness_StepKeepsReceptionLaw :
    (keeping .lineInEndDelimiter).ReceptionLaw ∧ ∃ t, step (keeping .lineInEndDelimiter) = .next t := ⟨keeping_law _, _, rfl⟩

/-- StepKeepsBlocksOnce: the blocks of the power-up part, all free, beside that frame. -/
theorem witness_StepKeepsBlocksOnce :
    (keeping .tickExpiry).ReceptionLaw ∧ (keeping .tickExpiry).BlocksOnce ∧ ∃ t, step (keeping .tickExpiry) = .next t := by
  refine ⟨keeping_law _, ?_, _, rfl⟩
  intro b
  have hc : (keeping .tickExpiry).chains.flatten = [] := by decide +kernel
  have hf : (keeping .tickExpiry).store.free = List.finRange 1024 := by
    simp only [keeping, receiving, State.reset, State.powerUp, FrameStore.powerUp]
  rw [State.blockPlaces, hc, List.append_nil, hf]
  exact List.count_eq_one_of_mem (List.nodup_finRange 1024) (List.mem_finRange b)

/-- StepKeepsSchedulerLaw: level 1 current over a suspended frame of level 3, its timer running under a Hold of level 3. -/
theorem witness_StepKeepsSchedulerLaw :
    let c := sent (released 14 1 150 [7, 8, 9] true true) 1
    let e : EgressScheduler := { scheduler [] (some c) (some (segmentOf c)) [sent frame3 1] with
      timers := #v[.stopped, .stopped, .stopped, .running 7] }
    let s : State := { sending e with pending := [.segmentCompletion], lineOut := { state := .idle, holdMask := 8 } }
    s.egress.Law s.lineOut ∧ ∃ t, step s = .next t := by
  refine ⟨?_, _, rfl⟩
  constructor
  · decide +kernel
  · decide +kernel
  · decide +kernel
  · intro c hc
    simp [sending, scheduler] at hc
    subst hc
    exact ⟨by decide, by decide⟩
  · intro c hc h
    simp [sending, scheduler, EgressScheduler.segmentInFlight, segmentOf] at h
  · intro g hg
    simp [sending, scheduler, segmentOf] at hg
    subst hg
    exact ⟨_, rfl, rfl, rfl⟩
  · intro h; simp [sending, scheduler] at h
  · intro h; simp [sending, scheduler, EgressScheduler.powerUp] at h
  · decide +kernel
  · intro h; simp [sending, scheduler, segmentOf] at h
  · decide +kernel
  · intro h; simp at h

/-- StepKeepsPlanLaw: Check Plan at the second entry of bank B, the Default Flow Present in bank A, and a frame of flow 12 waiting. -/
def checking (c : Instr) : State :=
  { State.powerUp 3 with
    pending := [c],
    pacing := { PacingUnit.powerUp with queues := PacingUnit.powerUp.queues.set 12 [queued 12 40 0] },
    plan := { planned [⟨0x0100, 12⟩] 12 Descriptor.powerUp with
      bankB := { (planned [⟨0x0100, 12⟩, ⟨0x0200, 40⟩] 12 Descriptor.powerUp).bankA with ready := false },
      job := some { kind := .check, bank := .bankB, transaction := 1, phase := .map, progress := 1 } } }

/-- A table with one Present descriptor among the power-up ones holds valid descriptors. -/
theorem planned_valid (f : Flow) : ((planned [] 12 Descriptor.powerUp).bankA.flows[f]).record.badField = none := by
  simp only [planned, Fin.getElem_fin, Vector.getElem_set]
  split
  · decide
  · simp only [Vector.getElem_replicate]
    decide

/-- The settings and the queues of that state: the power-up settings, and one queue with a frame. -/
theorem checking_laws (c : Instr) : (checking c).SettingsLaw ∧ (checking c).QueueLaw := by
  have hq : ∀ flow : Flow, (checking c).pacing.queues[flow] = if 12 = flow.val then [queued 12 40 0] else [] := by
    intro flow
    simp only [checking, PacingUnit.powerUp, Fin.getElem_fin, Vector.getElem_set, Vector.getElem_replicate]
  have hg : (checking c).settings = (checking .tickExpiry).settings := rfl
  refine ⟨⟨by rw [hg]; decide, by rw [hg]; decide⟩, fun flow f hf => ?_, fun flow => ?_⟩
  · rw [hq] at hf
    split at hf
    · rename_i h
      rw [List.mem_singleton.1 hf]
      exact Fin.ext h
    · cases hf
  · rw [hq]
    split <;> decide

theorem witness_StepKeepsPlanLaw :
    (checking .jobItemCompletion).PlanLaw ∧
      ((checking .jobItemCompletion).SettingsLaw ∧ (checking .jobItemCompletion).QueueLaw) ∧
      ∃ t, step (checking .jobItemCompletion) = .next t := by
  refine ⟨?_, checking_laws _, _, rfl⟩
  constructor
  · intro b; cases b <;> decide +kernel
  · intro b; cases b <;> decide +kernel
  · intro b f; cases b <;> exact planned_valid f
  · rfl
  · intro b hb
    cases b
    · refine ⟨?_, fun h => by simp [checking, State.settings, State.powerUp, ManagementAgent.powerUp, Settings.powerUp] at h⟩
      intro e he
      have he' : e = ⟨0x0100, 12⟩ := by simpa [checking, planned, PlanStore.bank] using he
      subst he'
      exact ⟨by decide +kernel, by decide +kernel⟩
    · simp [checking, PlanStore.bank] at hb
  · intro j hj
    simp [checking] at hj
    subst hj
    refine ⟨by decide, rfl, by decide, ?_⟩
    intro e he
    have he' : e = ⟨0x0100, 12⟩ := by simpa [checking, planned, PlanStore.bank] using he
    subst he'
    exact ⟨by decide +kernel, by decide +kernel⟩
  · intro _; rfl
  · intro r hr; simp [checking, State.powerUp] at hr

/-- StepKeepsMemoryAndReportLaws: two bytes written at the ends of the store, two reports pending. -/
theorem witness_StepKeepsMemoryAndReportLaws :
    let s : State := { station3 .lineInComesUp with
      store := { mem := [⟨0, 1⟩, ⟨65535, 2⟩], free := [] },
      reports := [{ first := .checkError 1, occurrences := 65535, latestTick := 0 }, { first := .inboxOverflow, occurrences := 1, latestTick := 0 }] }
    (∃ t, step s = .next t) ∧ s.MemoryLaw ∧ s.ReportLaw :=
  ⟨⟨_, rfl⟩, ⟨by decide +kernel, by decide⟩, by decide +kernel, by decide +kernel⟩

/-- StepKeepsReturnLaw: a response on the line before a reserved place, a return frame being stored behind a complete one. -/
theorem witness_StepKeepsReturnLaw :
    let r : Response := aResponse
    let s : State := { restarting (receiving (LineInReceiver.empty .idle) none) true true true with
      pending := [.lineInTransmissionCompletion],
      lineOut := { state := .storing, holdMask := 0 },
      merge := { buffer := [⟨true, List.replicate 12 0⟩, ⟨false, []⟩], lastServed := .agentSide,
                 transmitter := .busy .response (withFrameCheck r.bytes) },
      agent := { State.reset.agent with execution := .restarting 5 true true true, outbox := [.ready r, .reserved] } }
    s.ReceptionLaw ∧ s.ReturnLaw ∧ ∃ t, step s = .next t := by
  refine ⟨?_, ?_, _, rfl⟩
  · refine ⟨by decide, ?_, ?_, ?_, ?_, by decide, by decide, by decide, ?_, ?_, ?_, ?_, ?_, ?_⟩ <;>
      simp [restarting, receiving, LineInReceiver.empty, State.reset, State.powerUp, ManagementAgent.powerUp,
        PacingUnit.powerUp, EgressScheduler.powerUp]
  constructor
  · decide
  · decide
  · simp
  · decide
  · decide
  · exact ⟨fun h => by simp at h, fun _ => ⟨[.ready aResponse], rfl, by decide⟩⟩
  · intro bytes h; simp at h
  · intro bytes h
    simp at h
    exact ⟨aResponse, _, rfl, h.symm⟩
  · simp [restarting, receiving, LineInReceiver.empty]

end Sys2Proof.Tests
end

section
/-! The answers of the plan's reads (R118, R119) and of the writes of map entries and descriptors (R114 to R117): what a new command
leaves when its owning block changed nothing or wrote one bank, the bank operand judged, one equation per outcome of an owning block, and
the statements settled from them. -/

namespace Sys2Proof.Machine

open Sys2Proof

/-! ## A new command that changed nothing, and one that wrote a bank -/

/-- A new command whose owning block answers and changes nothing (R118, R136, R137). -/
theorem State.beginCommand_unchanged {s : State} {code : Byte} {lengths : List Nat} {run : InboxEntry → State → Reply}
    {e : InboxEntry} {st : Status} {results : List Byte} (h : s.Begins code lengths e)
    (hr : run e s.takeEntry = { state := s.takeEntry, answer := some (st, results) }) :
    s.beginCommand (InboxEntry.isCommand code) lengths run = s.answer e st results := by
  rw [State.beginCommand_answered s s.takeEntry code lengths run e st results h hr, State.takeEntry_respond]
  rfl

/-- A new command whose owning block answers Done with one bank written: the bank's Ready mark is cleared with it (R113, R136). -/
theorem State.beginCommand_writeBank {s : State} {code : Byte} {lengths : List Nat} {run : InboxEntry → State → Reply}
    {e : InboxEntry} {b : Bank} {c : BankContents} {results : List Byte} (h : s.Begins code lengths e)
    (hr : run e s.takeEntry = (s.takeEntry.writeBank b c).answerDone results) :
    s.beginCommand (InboxEntry.isCommand code) lengths run =
      State.answer { s with plan := s.plan.setBank b { c with ready := false } } e .done results := by
  rw [State.beginCommand_answered s (s.takeEntry.writeBank b c) code lengths run e .done results h hr,
    State.respond_reserved _ s.agent.outbox _ _ _ _ _ rfl]
  rfl

/-! ## The bank operand (R112, R140) -/

/-- A bank operand that names no bank is refused with Range (R140). -/
theorem State.withBank_noBank {s : State} {ops : List Byte} {k : Bank → Reply} (h : ∀ b : Bank, operandByte ops 0 ≠ b.byte) :
    s.withBank ops k = s.refuse .range := by
  simp [State.withBank, operandBank, (bankOf_eq_none _).2 h]

/-- A read command takes either bank, the active one and a running job included (R118). -/
theorem State.withBank_bank {s : State} {ops : List Byte} {k : Bank → Reply} {b : Bank} (h : operandByte ops 0 = b.byte) :
    s.withBank ops k = k b := by
  simp [State.withBank, operandBank, (bankOf_eq_some _ b).2 h]

/-- On the standby bank, with no job running, the guard lets the command through (R112). -/
theorem State.guarded_standby {s : State} {ops : List Byte} {k : Bank → Reply}
    (h : operandByte ops 0 = s.plan.active.other.byte) (hj : s.plan.job = none) :
    s.guarded ops k = k s.plan.active.other := by
  simp [State.guarded, operandBank, (bankOf_eq_some _ _).2 h, Bank.other_ne, State.jobRunning, hj]

/-! ## Reads (R118, R119) -/

section Reads

variable {s : State} {e : InboxEntry} {b : Bank}

/-- A held label is answered with its Flow (R118). -/
theorem runReadMapEntry_held {f : Flow} (hb : operandByte e.operands 0 = b.byte)
    (hs : mapSorted (s.plan.bank b).map = true) (hf : MapEntry.mk (operandWord e.operands 1) f ∈ (s.plan.bank b).map) :
    runReadMapEntry e s = s.answerDone [byteOf f.val] := by
  rw [runReadMapEntry, State.withBank_bank hb]
  simp only [mapLookup_mem _ _ f hs hf, flowByte]

/-- A label that no entry holds is answered Missing (R118). -/
theorem runReadMapEntry_missing (hb : operandByte e.operands 0 = b.byte)
    (hm : ∀ x ∈ (s.plan.bank b).map, x.label ≠ operandWord e.operands 1) :
    runReadMapEntry e s = s.refuse .missing := by
  rw [runReadMapEntry, State.withBank_bank hb]
  simp only [(mapLookup_none _ _).2 hm]

/-- A descriptor is answered as stored (R118). -/
theorem runReadFlow_bank (hb : operandByte e.operands 0 = b.byte) :
    runReadFlow e s = s.answerDone ((s.plan.bank b).flows[operandFlow e.operands 1]).bytes := by
  rw [runReadFlow, State.withBank_bank hb, BankContents.descriptor]

/-- A listing of the bank named (R119). -/
theorem runListMap_bank (hb : operandByte e.operands 0 = b.byte) :
    runListMap e s = s.answerDone
      (listing (s.plan.bank b).map (if e.operandLength = 3 then some (operandWord e.operands 1) else none)) := by
  rw [runListMap, State.withBank_bank hb]

/-- The results of a listing, over the entries it begins from (R119). -/
theorem listing_eq (m : List MapEntry) (previous : Option Word16) :
    listing m previous =
      wordOf m.length ++ [if 32 < (entriesAfter m previous).length then 1 else 0, byteOf (min 32 (entriesAfter m previous).length)]
        ++ ((entriesAfter m previous).take 32).flatMap (fun x => be16 x.label ++ [byteOf x.flow.val]) := by
  simp only [listing, boolByte, decide_eq_true_eq, List.length_take]
  rfl

/-- A listing with one operand byte begins at the first entry, with three above the Previous Label (R119). -/
theorem entriesAfter_operands (m : List MapEntry) (hl : e.operandLength ∈ [1, 3]) :
    entriesAfter m (if e.operandLength = 3 then some (operandWord e.operands 1) else none) =
      if e.operandLength = 1 then m else m.filter (fun x => decide ((operandWord e.operands 1).toNat < x.label.toNat)) := by
  have h : e.operandLength = 1 ∨ e.operandLength = 3 := by simpa using hl
  rcases h with h | h <;> simp [h, entriesAfter]

end Reads

/-- Settles O51: each read's owning block leaves the part as it was, so only its answer is to be found, outcome by outcome. -/
theorem planReadsAnswerFromEitherBank : Obligations.PlanReadsAnswerFromEitherBank := by
  intro s e
  refine ⟨fun hno c code lengths hc h => ?_,
    fun b hb => ⟨fun h hs => ⟨fun f hf => ?_, fun hm => ?_⟩, fun h => ?_, fun h rest hrest => ?_⟩⟩
  · simp only [List.mem_cons, Prod.mk.injEq, List.not_mem_nil, or_false] at hc
    rcases hc with ⟨rfl, rfl, rfl⟩ | ⟨rfl, rfl, rfl⟩ | ⟨rfl, rfl, rfl⟩ <;>
      exact congrArg _ (State.beginCommand_unchanged h (State.withBank_noBank hno))
  · exact congrArg _ (State.beginCommand_unchanged h (runReadMapEntry_held hb hs hf))
  · exact congrArg _ (State.beginCommand_unchanged h (runReadMapEntry_missing hb hm))
  · exact congrArg _ (State.beginCommand_unchanged h (runReadFlow_bank hb))
  · have hrun := runListMap_bank (s := s.takeEntry) hb
    rw [listing_eq, entriesAfter_operands _ h.hasLength, State.takeEntry_plan, ← hrest] at hrun
    exact congrArg _ (State.beginCommand_unchanged h hrun)

/-! ## Writes of map entries (R114, R115) -/

/-- A label between the labels of two parts of a map is held by neither. -/
theorem mapLookup_between {before after : List MapEntry} {l : Word16} (hbefore : ∀ x ∈ before, x.label.toNat < l.toNat)
    (hafter : ∀ x ∈ after, l.toNat < x.label.toNat) : mapLookup (before ++ after) l = none := by
  refine (mapLookup_none _ _).2 fun x hx hl => ?_
  rw [← hl] at hbefore hafter
  rcases List.mem_append.1 hx with hx | hx
  · exact Nat.lt_irrefl _ (hbefore x hx)
  · exact Nat.lt_irrefl _ (hafter x hx)

section MapWrites

variable {s : State} {e : InboxEntry} {before after : List MapEntry} {old : Flow}
  (hb : operandByte e.operands 0 = s.plan.active.other.byte) (hj : s.plan.job = none)

include hb hj

/-- A held label's entry is rewritten in its place, and the entry count stays (R114). -/
theorem runWriteMapEntry_held (hs : mapSorted (s.plan.bank s.plan.active.other).map = true)
    (hm : (s.plan.bank s.plan.active.other).map = before ++ { label := operandWord e.operands 1, flow := old } :: after) :
    runWriteMapEntry e s =
      (s.writeBank s.plan.active.other { s.plan.bank s.plan.active.other with
        map := before ++ { label := operandWord e.operands 1, flow := operandFlow e.operands 3 } :: after }).answerDone
          (wordOf (s.plan.bank s.plan.active.other).map.length ++ [0]) := by
  have hlook := mapLookup_mem _ (operandWord e.operands 1) old hs (by simp [hm])
  rw [hm] at hs hlook
  rw [runWriteMapEntry, State.guarded_standby hb hj]
  simp [hm, hlook, mapInsert_replace before after _ old _ hs, boolByte]

/-- A new entry has no room in a map of 512 (R114). -/
theorem runWriteMapEntry_full
    (hlook : mapLookup (s.plan.bank s.plan.active.other).map (operandWord e.operands 1) = none)
    (hfull : 512 ≤ (s.plan.bank s.plan.active.other).map.length) : runWriteMapEntry e s = s.refuse .full := by
  rw [runWriteMapEntry, State.guarded_standby hb hj]
  simp [hlook, hfull]

/-- A new entry joins between the lower and the higher labels (R114). -/
theorem runWriteMapEntry_new (hm : (s.plan.bank s.plan.active.other).map = before ++ after)
    (hbefore : ∀ x ∈ before, x.label.toNat < (operandWord e.operands 1).toNat)
    (hafter : ∀ x ∈ after, (operandWord e.operands 1).toNat < x.label.toNat)
    (hroom : (s.plan.bank s.plan.active.other).map.length < 512) :
    runWriteMapEntry e s =
      (s.writeBank s.plan.active.other { s.plan.bank s.plan.active.other with
        map := before ++ { label := operandWord e.operands 1, flow := operandFlow e.operands 3 } :: after }).answerDone
          (wordOf ((s.plan.bank s.plan.active.other).map.length + 1) ++ [1]) := by
  have hnotFull := Nat.not_le.2 hroom
  rw [hm] at hnotFull
  rw [runWriteMapEntry, State.guarded_standby hb hj]
  simp only [hm, mapLookup_between hbefore hafter, mapInsert_new before after _ _ hbefore hafter, hnotFull]
  simp [boolByte, Nat.add_assoc]

/-- A removed entry leaves its place, and its Flow is answered (R115). -/
theorem runRemoveMapEntry_held (hs : mapSorted (s.plan.bank s.plan.active.other).map = true)
    (hm : (s.plan.bank s.plan.active.other).map = before ++ { label := operandWord e.operands 1, flow := old } :: after) :
    runRemoveMapEntry e s =
      (s.writeBank s.plan.active.other { s.plan.bank s.plan.active.other with map := before ++ after }).answerDone
        ([byteOf old.val] ++ wordOf (before.length + after.length)) := by
  have hlook := mapLookup_mem _ (operandWord e.operands 1) old hs (by simp [hm])
  rw [hm] at hs hlook
  rw [runRemoveMapEntry, State.guarded_standby hb hj]
  simp only [hm, hlook, mapRemove_split before after _ old hs, List.length_append, flowByte]

/-- A label that no entry holds cannot be removed (R115). -/
theorem runRemoveMapEntry_missing
    (hm : ∀ x ∈ (s.plan.bank s.plan.active.other).map, x.label ≠ operandWord e.operands 1) :
    runRemoveMapEntry e s = s.refuse .missing := by
  rw [runRemoveMapEntry, State.guarded_standby hb hj]
  simp only [(mapLookup_none _ _).2 hm]

end MapWrites

/-- Settles O53: in an ordered map the lookup, the insertion and the removal act at the place the label gives. -/
theorem mapEntriesAreWrittenAndRemovedInPlace : Obligations.MapEntriesAreWrittenAndRemovedInPlace := by
  intro s e b c label written hb hj hs
  refine ⟨fun h => ⟨fun before old after hm => ?_, fun before after hm hbefore hafter => ?_⟩,
    fun h => ⟨fun before old after hm => ?_, fun hm => ?_⟩⟩
  · exact congrArg _ (State.beginCommand_writeBank h (runWriteMapEntry_held hb hj hs hm))
  · split
    · rename_i hroom
      exact congrArg _ (State.beginCommand_writeBank h (runWriteMapEntry_new hb hj hm hbefore hafter hroom))
    · rename_i hfull
      have hlook : mapLookup c.map label = none := hm ▸ mapLookup_between hbefore hafter
      exact congrArg _ (State.beginCommand_unchanged h (runWriteMapEntry_full hb hj hlook (Nat.le_of_not_lt hfull)))
  · exact congrArg _ (State.beginCommand_writeBank h (runRemoveMapEntry_held hb hj hs hm))
  · exact congrArg _ (State.beginCommand_unchanged h (runRemoveMapEntry_missing hb hj hm))

/-! ## Descriptor records judged (R110) -/

/-- The field with this number lies outside its range, the parameters as the record's mode uses them (R110, R178). -/
def DescriptorRecord.fieldOutOfRange (r : DescriptorRecord) : Nat → Bool
  | 0 => 1 < r.present.toNat
  | 1 => 3 < r.urgency.toNat
  | 2 => 1 < r.preemptible.toNat
  | 3 => 1 < r.preempting.toNat
  | 4 => 4 < r.mode.toNat
  | 5 => (1 ≤ r.mode.toNat ∧ r.mode.toNat ≤ 4 ∧ r.param1.toNat = 0) ∨ (r.mode.toNat = 2 ∧ 64 < r.param1.toNat)
  | 6 => (r.mode.toNat = 2 ∧ (r.param2.toNat < 16 ∨ 4096 < r.param2.toNat)) ∨ (r.mode.toNat = 3 ∧ r.param2.toNat = 0) ∨
      (r.mode.toNat = 4 ∧ (r.param2.toNat = 0 ∨ 255 < r.param2.toNat))
  | 7 => (r.mode.toNat = 3 ∧ 255 < r.param3.toNat) ∨ (r.mode.toNat = 4 ∧ (r.param3.toNat = 0 ∨ 255 < r.param3.toNat))
  | 8 => r.mode.toNat = 4 ∧ r.param4.toNat = 0
  | 9 => r.depthLimit.toNat = 0 ∨ 64 < r.depthLimit.toNat
  | 10 => 1 < r.overflow.toNat
  | _ => false

theorem not_inRange (lo hi n : Nat) : (!inRange lo hi n) = decide (n < lo ∨ hi < n) := by
  simp [inRange, Bool.not_and, ← decide_not]

/-- The search of a list by its first element. -/
theorem find?_cons_ite {α : Type} (p : α → Bool) (a : α) (l : List α) :
    (a :: l).find? p = if p a then some a else l.find? p := by
  cases h : p a <;> simp [h]

/-- An alternative to a choice is the alternative of its last branch. -/
theorem ite_some_or {α : Type} (c : Prop) [Decidable c] (a : α) (x y : Option α) :
    (if c then some a else x).or y = if c then some a else x.or y := by
  split <;> rfl

/-- Under a mode in range, the judgement of the parameters finds the first of fields 5 to 8 that is out of range. -/
theorem DescriptorRecord.badParameter_eq_find (r : DescriptorRecord) (h : r.mode.toNat ≤ 4) :
    r.badParameter = [5, 6, 7, 8].find? r.fieldOutOfRange := by
  have h1 : ¬ 65535 < r.param1.toNat := by have := r.param1.isLt; omega
  have h2 : ¬ 65535 < r.param2.toNat := by have := r.param2.isLt; omega
  have h4 : ¬ 65535 < r.param4.toNat := by have := r.param4.isLt; omega
  unfold badParameter
  have hmode : r.mode.toNat = 0 ∨ r.mode.toNat = 1 ∨ r.mode.toNat = 2 ∨ r.mode.toNat = 3 ∨ r.mode.toNat = 4 := by omega
  rcases hmode with hm | hm | hm | hm | hm <;>
    simp [hm, not_inRange, find?_cons_ite, fieldOutOfRange, h1, h2, h4]

/-- The judgement of a record finds the first of its thirteen fields that is out of range (R110, R116). -/
theorem DescriptorRecord.badField_eq_find (r : DescriptorRecord) : r.badField = (List.range 13).find? r.fieldOutOfRange := by
  rw [show List.range 13 = [0, 1, 2, 3, 4] ++ [5, 6, 7, 8] ++ [9, 10, 11, 12] from rfl, List.find?_append, List.find?_append]
  rcases Nat.lt_or_ge 4 r.mode.toNat with hm | hm
  · simp [badField, not_inRange, find?_cons_ite, ite_some_or, fieldOutOfRange, hm]
  · rw [badField, r.badParameter_eq_find hm]
    generalize [5, 6, 7, 8].find? r.fieldOutOfRange = parameter
    cases parameter <;> simp [not_inRange, find?_cons_ite, ite_some_or, fieldOutOfRange, Nat.not_lt.2 hm, -Option.or_some]

/-- A record is found bad in a field when that field is out of range and none before it is (R116). -/
theorem DescriptorRecord.badField_eq_some {r : DescriptorRecord} {n : Nat} (hn : r.fieldOutOfRange n = true)
    (hfirst : ∀ m, m < n → r.fieldOutOfRange m = false) : r.badField = some n := by
  have hlt : n < 13 := by
    by_contra hge
    obtain ⟨k, rfl⟩ := Nat.exists_eq_add_of_le (Nat.le_of_not_lt hge)
    simp [Nat.add_comm 13, fieldOutOfRange] at hn
  rw [badField_eq_find, List.find?_range_eq_some]
  exact ⟨hn, List.mem_range.2 hlt, fun m hm => by simp [hfirst m hm]⟩

theorem DescriptorRecord.badField_eq_none {r : DescriptorRecord} (h : ∀ n, r.fieldOutOfRange n = false) : r.badField = none := by
  simp [badField_eq_find, h]

/-- The fields out of range, listed by their numbers (R110). -/
theorem DescriptorRecord.fieldOutOfRange_iff (r : DescriptorRecord) (n : Nat) :
    r.fieldOutOfRange n = true ↔
      (n = 0 ∧ 1 < r.present.toNat) ∨ (n = 1 ∧ 3 < r.urgency.toNat) ∨ (n = 2 ∧ 1 < r.preemptible.toNat) ∨
      (n = 3 ∧ 1 < r.preempting.toNat) ∨ (n = 4 ∧ 4 < r.mode.toNat) ∨
      (n = 5 ∧ ((1 ≤ r.mode.toNat ∧ r.mode.toNat ≤ 4 ∧ r.param1.toNat = 0) ∨ (r.mode.toNat = 2 ∧ 64 < r.param1.toNat))) ∨
      (n = 6 ∧ ((r.mode.toNat = 2 ∧ (r.param2.toNat < 16 ∨ 4096 < r.param2.toNat)) ∨ (r.mode.toNat = 3 ∧ r.param2.toNat = 0) ∨
        (r.mode.toNat = 4 ∧ (r.param2.toNat = 0 ∨ 255 < r.param2.toNat)))) ∨
      (n = 7 ∧ ((r.mode.toNat = 3 ∧ 255 < r.param3.toNat) ∨ (r.mode.toNat = 4 ∧ (r.param3.toNat = 0 ∨ 255 < r.param3.toNat)))) ∨
      (n = 8 ∧ r.mode.toNat = 4 ∧ r.param4.toNat = 0) ∨
      (n = 9 ∧ (r.depthLimit = 0 ∨ 64 < r.depthLimit.toNat)) ∨ (n = 10 ∧ 1 < r.overflow.toNat) := by
  have hdepth : r.depthLimit = 0 ↔ r.depthLimit.toNat = 0 := BitVec.toNat_inj.symm
  unfold fieldOutOfRange
  split <;> simp_all

/-! ## Writes of descriptors (R116, R117) -/

theorem State.writeDescriptor_bad {s : State} {b : Bank} {f : Flow} {r : DescriptorRecord} {n : Nat} (h : r.badField = some n) :
    s.writeDescriptor b f r = s.refuseWith .range n := by
  simp [State.writeDescriptor, h]

theorem State.writeDescriptor_valid {s : State} {b : Bank} {f : Flow} {r : DescriptorRecord} (h : r.badField = none) :
    s.writeDescriptor b f r =
      (s.writeBank b { s.plan.bank b with flows := (s.plan.bank b).flows.set f r.toDescriptor }).answerDone [] := by
  simp [State.writeDescriptor, h]

/-- A new command that writes a descriptor judges its record: refused with the first field out of range, or stored as sent (R116). -/
theorem State.beginCommand_writeDescriptor {s : State} {e : InboxEntry} {code : Byte} {lengths : List Nat}
    {run : InboxEntry → State → Reply} {b : Bank} {f : Flow} {r : DescriptorRecord} (h : s.Begins code lengths e)
    (hr : run e s.takeEntry = s.takeEntry.writeDescriptor b f r) :
    (∀ n, r.fieldOutOfRange n = true → (∀ m, m < n → ¬ r.fieldOutOfRange m = true) →
      s.beginCommand (InboxEntry.isCommand code) lengths run = s.answer e .range [byteOf n]) ∧
    ((∀ n, ¬ r.fieldOutOfRange n = true) → ∃ d : Descriptor, d.record = r ∧
      s.beginCommand (InboxEntry.isCommand code) lengths run = State.answer
        { s with plan := s.plan.setBank b { s.plan.bank b with flows := (s.plan.bank b).flows.set f d, ready := false } } e .done []) := by
  simp only [Bool.not_eq_true]
  refine ⟨fun n hn hfirst => ?_, fun hvalid => ?_⟩
  · exact State.beginCommand_unchanged h (hr.trans (State.writeDescriptor_bad (DescriptorRecord.badField_eq_some hn hfirst)))
  · have hnone := DescriptorRecord.badField_eq_none hvalid
    exact ⟨r.toDescriptor, r.toDescriptor_record hnone,
      State.beginCommand_writeBank h (hr.trans (State.writeDescriptor_valid hnone))⟩

section FlowWrites

variable {s : State} {e : InboxEntry} (hb : operandByte e.operands 0 = s.plan.active.other.byte) (hj : s.plan.job = none)

include hb hj

/-- On the standby bank the record sent is the one judged (R116). -/
theorem runWriteFlow_standby :
    runWriteFlow e s =
      s.writeDescriptor s.plan.active.other (operandFlow e.operands 1) (operandDescriptor e.operands 2) :=
  State.guarded_standby hb hj

/-- A select bit above the thirteen fields is refused before the record is judged (R117). -/
theorem runModifyFlow_badSelect (hsel : 8192 ≤ (operandWord e.operands 2).toNat) : runModifyFlow e s = s.refuseWith .range 13 := by
  rw [runModifyFlow, State.guarded_standby hb hj]
  simp [hsel]

/-- With the select bits in range, the selected fields replace those of the held descriptor (R117). -/
theorem runModifyFlow_select (hsel : (operandWord e.operands 2).toNat < 8192) :
    runModifyFlow e s = s.writeDescriptor s.plan.active.other (operandFlow e.operands 1)
      (((s.plan.bank s.plan.active.other).flows[operandFlow e.operands 1]).record.select (operandDescriptor e.operands 4)
        (operandWord e.operands 2)) := by
  rw [runModifyFlow, State.guarded_standby hb hj]
  simp [Nat.not_le.2 hsel, BankContents.descriptor]

end FlowWrites

/-- Settles O54: both commands hand a record to the one judgement, which finds the first field out of range. -/
theorem flowWritesStoreOnlyValidDescriptors : Obligations.FlowWritesStoreOnlyValidDescriptors := by
  intro s e b c f outOfRange judged hb hj
  have hjudged : ∀ (cmd : Instr) (code : Byte) (lengths : List Nat) (run : InboxEntry → State → Reply) (r : DescriptorRecord),
      exec cmd s = .next (s.beginCommand (InboxEntry.isCommand code) lengths run) → s.Begins code lengths e →
      run e s.takeEntry = s.takeEntry.writeDescriptor b f r → judged cmd r := by
    intro cmd code lengths run r hexec h hr
    have hwrite := State.beginCommand_writeDescriptor h hr
    simp only [DescriptorRecord.fieldOutOfRange_iff] at hwrite
    simp only [judged, outOfRange, hexec, Host.Outcome.next.injEq]
    exact hwrite
  refine ⟨fun h => ?_, fun h => ⟨fun hsel => ?_, fun hsel => ?_⟩⟩
  · exact hjudged _ _ _ _ _ rfl h (runWriteFlow_standby hb hj)
  · exact congrArg _ (State.beginCommand_unchanged h (runModifyFlow_badSelect hb hj hsel))
  · exact hjudged _ _ _ _ _ rfl h (runModifyFlow_select hb hj hsel)

end Sys2Proof.Machine
end


section
/-! Write Settings (R127, R143, R144): the ranges of a settings record, what the checks of R143 and the questions of R127 ask, one equation
per outcome of the owning block, and the statement settled from them. -/

namespace Sys2Proof.Machine

open Sys2Proof

/-! ## The settings record received (R143 check 1, R178) -/

/-- The top bit of a byte is set exactly when the byte is 128 or more. -/
theorem getLsbD_seven (b : Byte) : b.getLsbD 7 = decide (128 ≤ b.toNat) :=
  (BitVec.msb_eq_getLsbD_last b).symm.trans (BitVec.msb_eq_decide b)

/-- The judgement of a settings record, its ranges written out: of the eight settings, numbers 2, 3, 5 and 7 can be out of range. -/
theorem SettingsRecord.badSetting_eq (r : SettingsRecord) :
    r.badSetting =
      if r.tickPeriod = 0 ∨ 4096 < r.tickPeriod.toNat then some 2
      else if 128 < r.reserveFloor.toNat then some 3
      else if 1 < r.unmappedPolicy.toNat then some 5
      else if 128 ≤ r.reportEnable.toNat then some 7 else none := by
  have hzero : r.tickPeriod = 0 ↔ r.tickPeriod.toNat < 1 := by
    rw [Nat.lt_one_iff]
    exact BitVec.toNat_inj.symm
  simp only [badSetting, not_inRange, getLsbD_seven, hzero, Nat.not_lt_zero, false_or, decide_eq_true_eq]

/-- With no setting out of range, the policy byte names Discard by 0 and Default Flow by its one other value. -/
theorem SettingsRecord.toSettings_valid {r : SettingsRecord} (h : r.badSetting = none) :
    r.toSettings =
      { managementLabel := r.managementLabel, responseLabel := r.responseLabel, tickPeriod := r.tickPeriod,
        reserveFloor := r.reserveFloor, stallLimit := r.stallLimit,
        unmappedPolicy := if r.unmappedPolicy = 0 then .discard else .defaultFlow,
        defaultFlow := r.defaultFlow.toFin, reportEnable := r.reportEnable.extractLsb' 0 7 } := by
  have hrange : r.unmappedPolicy.toNat ≤ 1 := by
    by_contra hout
    simp [badSetting_eq, Nat.lt_of_not_le hout, ite_eq_iff] at h
  have hpolicy : r.unmappedPolicy = 0 ∨ r.unmappedPolicy = 1 := by bv_omega
  rcases hpolicy with hp | hp <;> simp [toSettings, hp]

/-! ## The checks and questions asked of the new settings (R127, R143) -/

/-- Check 2 compares three settings with those in force (R143). -/
theorem Settings.samePlanSettings_iff (g new : Settings) :
    g.samePlanSettings new = true ↔ new.managementLabel = g.managementLabel ∧ new.unmappedPolicy = g.unmappedPolicy ∧
      new.defaultFlow = g.defaultFlow := by
  simp [samePlanSettings, and_assoc, @eq_comm _ g.managementLabel, @eq_comm _ g.unmappedPolicy, @eq_comm _ g.defaultFlow]

/-- The first question asks for an entry under the new Management Label (R127). -/
theorem BankContents.holdsLabel_iff (c : BankContents) (g : Settings) :
    c.holdsLabel g = true ↔ ∃ x ∈ c.map, x.label = g.managementLabel :=
  mapLookup_isSome c.map g.managementLabel

/-- The second question asks about the new Default Flow's descriptor under its own policy only (R127). -/
theorem BankContents.lacksDefault_iff (c : BankContents) (g : Settings) :
    c.lacksDefault g = true ↔ g.unmappedPolicy = .defaultFlow ∧ (c.flows[g.defaultFlow]).present = false := by
  simp [lacksDefault, descriptor]

/-- Settings that conflict with the standby bank's plan clear its Ready mark (R127). -/
theorem State.replaceSettings_conflict {s : State} {g : Settings}
    (h : (s.plan.bank s.plan.active.other).holdsLabel g = true ∨ (s.plan.bank s.plan.active.other).lacksDefault g = true) :
    s.replaceSettings g =
      { s with plan := s.plan.setBank s.plan.active.other { s.plan.bank s.plan.active.other with ready := false },
               agent := { s.agent with settings := g } } := by
  simp only [replaceSettings, Bool.or_eq_true, if_pos h]
  rfl

/-- Settings that agree with the standby bank's plan change the record alone (R127). -/
theorem State.replaceSettings_agree {s : State} {g : Settings}
    (hlabel : ¬ (s.plan.bank s.plan.active.other).holdsLabel g = true)
    (hflow : ¬ (s.plan.bank s.plan.active.other).lacksDefault g = true) :
    s.replaceSettings g = { s with agent := { s.agent with settings := g } } := by
  simp only [replaceSettings, Bool.or_eq_true, if_neg (not_or.2 ⟨hlabel, hflow⟩)]

/-! ## The outcomes of Write Settings (R143) -/

/-- Check 1: the first setting out of range is answered by its number. -/
theorem runWriteSettings_range {s : State} {e : InboxEntry} {n : Nat} (h : (operandSettings e.operands).badSetting = some n) :
    runWriteSettings e s = s.refuseWith .range n := by
  simp [runWriteSettings, h]

section WriteSettings

variable {s : State} {e : InboxEntry} {g : Settings} (hvalid : (operandSettings e.operands).badSetting = none)
  (hg : (operandSettings e.operands).toSettings = g)

include hvalid hg

/-- Check 2: while a job runs, the three settings it compares may not change. -/
theorem runWriteSettings_busy (hjob : s.plan.job ≠ none) (hsame : ¬ s.settings.samePlanSettings g = true) :
    runWriteSettings e s = s.refuse .busy := by
  simp [runWriteSettings, hvalid, hg, State.jobRunning, Option.isSome_iff_ne_none, hjob, hsame]

/-- Past check 2, the active bank's two questions decide. -/
theorem runWriteSettings_notBusy (h : s.plan.job = none ∨ s.settings.samePlanSettings g = true) :
    runWriteSettings e s =
      if s.plan.activeBank.holdsLabel g then s.refuseWith .conflict 1
      else if s.plan.activeBank.lacksDefault g then s.refuseWith .conflict 2
      else (s.replaceSettings g).answerDone [] := by
  rcases h with h | h <;> simp [runWriteSettings, hvalid, hg, State.jobRunning, h]

end WriteSettings

/-- A new command whose owning block answers Done with the plan and the settings replaced: the response carries the Response Label in
force before (R137, R144). -/
theorem State.beginCommand_writeSettings {s : State} {code : Byte} {lengths : List Nat} {run : InboxEntry → State → Reply}
    {e : InboxEntry} {plan : PlanStore} {g : Settings} (h : s.Begins code lengths e)
    (hr : run e s.takeEntry =
      State.answerDone { s.takeEntry with plan := plan, agent := { s.takeEntry.agent with settings := g } } []) :
    s.beginCommand (InboxEntry.isCommand code) lengths run =
      State.answered { s with plan := plan, agent := { s.agent with settings := g } } s.settings.responseLabel e .done [] := by
  rw [State.beginCommand_answered s _ code lengths run e .done [] h hr, State.respond_reserved _ s.agent.outbox _ _ _ _ _ rfl]
  rfl

/-- Settles O49: the four checks in their order, then the two answers the standby bank's questions can give together. -/
theorem writeSettingsIsJudgedInOrder : Obligations.WriteSettingsIsJudgedInOrder := by
  intro s e h word byte bad new mapsLabel lacksDefault samePlan standby done
  have hbad : (operandSettings e.operands).badSetting = bad := SettingsRecord.badSetting_eq _
  have hmaps : ∀ c : BankContents, c.holdsLabel new = true ↔ mapsLabel c := fun c => c.holdsLabel_iff new
  have hlacks : ∀ c : BankContents, c.lacksDefault new = true ↔ lacksDefault c := fun c => c.lacksDefault_iff new
  have hsame : s.settings.samePlanSettings new = true ↔ samePlan := s.settings.samePlanSettings_iff new
  refine ⟨fun n hn => congrArg _ (State.beginCommand_unchanged h (runWriteSettings_range (hbad.trans hn))), fun hnone => ?_⟩
  have hvalid := hbad.trans hnone
  have hnew : (operandSettings e.operands).toSettings = new := SettingsRecord.toSettings_valid hvalid
  simp only [← hmaps, ← hlacks, ← hsame]
  refine ⟨fun hjob hdiffer => congrArg _ (State.beginCommand_unchanged h (runWriteSettings_busy hvalid hnew hjob hdiffer)),
    fun hfree => ?_⟩
  have hrun := runWriteSettings_notBusy (s := s.takeEntry) hvalid hnew hfree
  refine ⟨fun hlabel => ?_, fun hlabel hflow => ?_, fun hlabel hflow => ⟨fun hconflict => ?_, fun hnoLabel hnoFlow => ?_⟩⟩
  · rw [State.takeEntry_plan, if_pos hlabel] at hrun
    exact congrArg _ (State.beginCommand_unchanged h hrun)
  · rw [State.takeEntry_plan, if_neg hlabel, if_pos hflow] at hrun
    exact congrArg _ (State.beginCommand_unchanged h hrun)
  · rw [State.takeEntry_plan, if_neg hlabel, if_neg hflow, State.replaceSettings_conflict (s := s.takeEntry) hconflict] at hrun
    exact congrArg _ (State.beginCommand_writeSettings h hrun)
  · rw [State.takeEntry_plan, if_neg hlabel, if_neg hflow, State.replaceSettings_agree (s := s.takeEntry) hnoLabel hnoFlow] at hrun
    exact congrArg _ (State.beginCommand_writeSettings h hrun)

end Sys2Proof.Machine
end

section
/-! The counter commands (R166, R167): which operands name a range, what a clear leaves of the Counter Bank, one equation per outcome of the
owning block, and the statement settled from them. -/

namespace Sys2Proof.Machine

open Sys2Proof

/-! ## The range the operands name (R166, R178) -/

/-- The judgement of a counter command's operands, its ranges written out. -/
theorem counterRange_eq (group first count : Byte) :
    counterRange group first count =
      if group = 0 ∧ first.toNat ≤ 13 ∧ 1 ≤ count.toNat ∧ count.toNat ≤ 14 ∧ first.toNat + count.toNat ≤ 14 then
        some (.inl (first.toNat, count.toNat))
      else if group = 1 ∧ 1 ≤ count.toNat ∧ count.toNat ≤ 8 ∧ first.toNat + count.toNat ≤ 256 then
        some (.inr (first.toNat, count.toNat))
      else none := by
  unfold counterRange
  by_cases hglobal : group = 0#8
  · simp [hglobal, inRange, and_assoc]
  · by_cases hflow : group = 1#8 <;> simp [hglobal, hflow, inRange, and_assoc]

/-! ## The Counter Bank after a clear (R167) -/

/-- A global counter after a clear of a range of the Global group. -/
theorem CounterBank.read_clear_globals (b : CounterBank) (first count : Nat) (c : GlobalCounter) :
    (b.clear (.inl (first, count))).read c = if first ≤ c.index.val ∧ c.index.val < first + count then 0 else b.read c := by
  simp [clear, read]

@[simp] theorem CounterBank.readFlow_clear_globals (b : CounterBank) (r : Nat × Nat) (f : Flow) (c : FlowCounter) :
    (b.clear (.inl r)).readFlow f c = b.readFlow f c := rfl

@[simp] theorem CounterBank.read_clear_flows (b : CounterBank) (r : Nat × Nat) (c : GlobalCounter) :
    (b.clear (.inr r)).read c = b.read c := by
  simp only [clear, read]

/-- A flow's counter after a clear of a range of the Flow group: all six counters of a flow in the range are 0. -/
theorem CounterBank.readFlow_clear_flows (b : CounterBank) (first count : Nat) (f : Flow) (c : FlowCounter) :
    (b.clear (.inr (first, count))).readFlow f c =
      if first ≤ f.val ∧ f.val < first + count then 0 else b.readFlow f c := by
  by_cases h : first ≤ f.val ∧ f.val < first + count <;> simp [clear, readFlow, h]

/-! ## The outcomes of the counter commands (R166, R167) -/

section CounterCommands

variable {s : State} {e : InboxEntry} {r : Nat × Nat ⊕ Nat × Nat}

/-- A range is answered with its echo and the counters' values, and nothing else is done. -/
theorem readCounters_range (h : s.Begins 0x13 [3] e) (hr : operandRange e.operands = some r) :
    exec .readCounters s = .next (s.answer e .done (counterResults e.operands (s.counters.values r))) :=
  congrArg _ (State.beginCommand_unchanged h (by simp [runReadCounters, hr, State.answerDone]))

/-- Operands that name no range are refused with Range by Read Counters. -/
theorem readCounters_noRange (h : s.Begins 0x13 [3] e) (hr : operandRange e.operands = none) :
    exec .readCounters s = .next (s.answer e .range []) :=
  congrArg _ (State.beginCommand_unchanged h (by simp [runReadCounters, hr, State.refuse]))

/-- A range is answered with the values from before the clear, and the clear is the one other change. -/
theorem readAndClearCounters_range (h : s.Begins 0x14 [3] e) (hr : operandRange e.operands = some r) :
    exec .readAndClearCounters s =
      .next (State.answer { s with counters := s.counters.clear r } e .done
        (counterResults e.operands (s.counters.values r))) := by
  have hrun : runReadAndClearCounters e s.takeEntry =
      State.answerDone { s.takeEntry with counters := s.counters.clear r }
        (counterResults e.operands (s.counters.values r)) := by
    simp [runReadAndClearCounters, hr]
  refine congrArg _ ((State.beginCommand_answered s _ _ _ _ e .done _ h hrun).trans ?_)
  rw [State.respond_reserved _ s.agent.outbox _ _ _ _ _ rfl]
  rfl

/-- Operands that name no range are refused with Range by Read and Clear Counters. -/
theorem readAndClearCounters_noRange (h : s.Begins 0x14 [3] e) (hr : operandRange e.operands = none) :
    exec .readAndClearCounters s = .next (s.answer e .range []) :=
  congrArg _ (State.beginCommand_unchanged h (by simp [runReadAndClearCounters, hr, State.refuse]))

end CounterCommands

/-- Settles O59: the operands name a range of the Global group, one of the Flow group, or none; each command answers by that judgement, and
what a clear leaves is read off counter by counter. -/
theorem counterCommandsReadAndClearARange : Obligations.CounterCommandsReadAndClearARange := by
  intro s e group first count isGlobal isFlow results globals flows inRange
  have hrange : operandRange e.operands =
      if isGlobal then some (.inl (first, count)) else if isFlow then some (.inr (first, count)) else none :=
    counterRange_eq _ _ _
  have hglobal (hg : isGlobal) : operandRange e.operands = some (.inl (first, count)) := hrange.trans (if_pos hg)
  have hflow (hf : isFlow) : operandRange e.operands = some (.inr (first, count)) := by
    have hnot : ¬ isGlobal := fun hg => absurd (hf.1.symm.trans hg.1) (by decide)
    exact hrange.trans ((if_neg hnot).trans (if_pos hf))
  have hnone (hg : ¬ isGlobal) (hf : ¬ isFlow) : operandRange e.operands = none :=
    hrange.trans ((if_neg hg).trans (if_neg hf))
  refine ⟨fun h => ⟨fun hg => ?_, fun hf => ?_, fun hg hf => ?_⟩, fun h => ⟨fun hg => ?_, fun hf => ?_, fun hg hf => ?_⟩⟩
  · exact readCounters_range h (hglobal hg)
  · exact readCounters_range h (hflow hf)
  · exact readCounters_noRange h (hnone hg hf)
  · exact ⟨_, readAndClearCounters_range h (hglobal hg),
      fun c hin => (CounterBank.read_clear_globals _ _ _ c).trans (if_pos hin),
      fun c hout => (CounterBank.read_clear_globals _ _ _ c).trans (if_neg hout),
      CounterBank.readFlow_clear_globals _ _⟩
  · exact ⟨_, readAndClearCounters_range h (hflow hf), CounterBank.read_clear_flows _ _,
      fun f c hin => (CounterBank.readFlow_clear_flows _ _ _ f c).trans (if_pos hin),
      fun f c hout => (CounterBank.readFlow_clear_flows _ _ _ f c).trans (if_neg hout)⟩
  · exact readAndClearCounters_noRange h (hnone hg hf)

end Sys2Proof.Machine
end

section
/-! The commands by rows and one step of the part: the rows of the agent that answer at once, each other row by itself (the shape of
every proof over all commands), what one step is, and the statements of the machine that need no more: one step, completion, the power-up
values. -/

namespace Sys2Proof.Machine

open Sys2Proof

/-! ## The commands by rows -/

/-- A property of every command, row by row: the rows of the agent that answer at once share one case, every other row is its own. -/
theorem Instr.byRows {P : Instr → Prop} (answered : ∀ c ∈ answeredRows, P c)
    (powerUpReset : ∀ straps, P (.powerUpReset straps))
    (lineInStartDelimiter : P .lineInStartDelimiter) (lineInByte : ∀ b, P (.lineInByte b))
    (lineInEndDelimiter : P .lineInEndDelimiter) (lineInErrorSymbol : P .lineInErrorSymbol)
    (lineInComesUp : P .lineInComesUp) (lineInGoesDown : P .lineInGoesDown)
    (holdSymbol : ∀ arg, P (.holdSymbol arg)) (receivedSymbol : ∀ symbol arg, P (.receivedAbortOrStreamReset symbol arg))
    (returnStartDelimiter : P .returnStartDelimiter) (returnByte : ∀ b, P (.returnByte b))
    (returnEndDelimiter : P .returnEndDelimiter) (returnErrorSymbol : P .returnErrorSymbol)
    (lineOutComesUp : P .lineOutComesUp) (lineOutGoesDown : P .lineOutGoesDown)
    (segmentCompletion : P .segmentCompletion) (controlSymbolCompletion : P .controlSymbolCompletion)
    (tickExpiry : P .tickExpiry) (stallTimerExpiry : ∀ l, P (.stallTimerExpiry l))
    (contextChange : ∀ c f, c = .gatePhaseChange f ∨ c = .windowBoundary f ∨ c = .epochBoundary f → P c)
    (admissionRequest : P .admissionRequest) (returnMergeChoice : P .returnMergeChoice)
    (transmissionCompletion : P .lineInTransmissionCompletion) (jobItemCompletion : P .jobItemCompletion)
    (restartTraffic : P .restartTraffic) (restartAtLineIn : P .restartAtLineInReceiver)
    (restartAtPacing : P .restartAtPacingUnit) (restartAtEgress : P .restartAtEgressScheduler)
    (restartCompletion : P .restartTrafficCompletion) (c : Instr) : P c := by
  cases c
  case powerUpReset straps => exact powerUpReset straps
  case lineInStartDelimiter => exact lineInStartDelimiter
  case lineInByte b => exact lineInByte b
  case lineInEndDelimiter => exact lineInEndDelimiter
  case lineInErrorSymbol => exact lineInErrorSymbol
  case lineInComesUp => exact lineInComesUp
  case lineInGoesDown => exact lineInGoesDown
  case holdSymbol arg => exact holdSymbol arg
  case receivedAbortOrStreamReset symbol arg => exact receivedSymbol symbol arg
  case returnStartDelimiter => exact returnStartDelimiter
  case returnByte b => exact returnByte b
  case returnEndDelimiter => exact returnEndDelimiter
  case returnErrorSymbol => exact returnErrorSymbol
  case lineOutComesUp => exact lineOutComesUp
  case lineOutGoesDown => exact lineOutGoesDown
  case segmentCompletion => exact segmentCompletion
  case controlSymbolCompletion => exact controlSymbolCompletion
  case tickExpiry => exact tickExpiry
  case stallTimerExpiry l => exact stallTimerExpiry l
  case gatePhaseChange f => exact contextChange _ f (.inl rfl)
  case windowBoundary f => exact contextChange _ f (.inr (.inl rfl))
  case epochBoundary f => exact contextChange _ f (.inr (.inr rfl))
  case admissionRequest => exact admissionRequest
  case returnMergeChoice => exact returnMergeChoice
  case lineInTransmissionCompletion => exact transmissionCompletion
  case jobItemCompletion => exact jobItemCompletion
  case restartTraffic => exact restartTraffic
  case restartAtLineInReceiver => exact restartAtLineIn
  case restartAtPacingUnit => exact restartAtPacing
  case restartAtEgressScheduler => exact restartAtEgress
  case restartTrafficCompletion => exact restartCompletion
  all_goals exact answered _ (by decide)

/-! ## One step -/

/-- Settles O1: one step is the front command's, by the definition of a step. -/
theorem stepRunsTheFrontCommand : Obligations.StepRunsTheFrontCommand :=
  ⟨fun s c rest h => by simp only [step, h], fun s h => by simp only [step, h]⟩

/-- What every command keeps, with the queue left out of account, every step keeps. -/
theorem step_keeps {P : State → Prop} (hqueue : ∀ s rest, P s → P { s with pending := rest })
    (hexec : ∀ c s t, exec c s = .next t → P s → P t) {s t : State} (h : step s = .next t) (hs : P s) : P t := by
  cases hp : s.pending with
  | nil =>
    rw [stepRunsTheFrontCommand.2 s hp, Host.Outcome.next.injEq] at h
    exact h ▸ hs
  | cons c rest =>
    rw [stepRunsTheFrontCommand.1 s c rest hp] at h
    exact hexec c _ t h (hqueue s rest hs)

/-! ## The rows that have no frame yet -/

section Frames

variable (s t : State)

/-- The power-up reset leaves the queue and the index of free values, and nothing else (R131). -/
theorem exec_powerUpReset {straps : BitVec 4} (h : exec (.powerUpReset straps) s = .next t) :
    t = { State.powerUp straps with pending := s.pending, draws := s.draws } := by
  simp only [exec, execPowerUpReset, Host.Outcome.next.injEq] at h
  exact h.symm

/-- Line-in coming Up (R105, R161). -/
theorem frame_lineInComesUp (h : exec .lineInComesUp s = .next t) :
    t = { s with lineIn := t.lineIn, merge := t.merge, reports := t.reports } := by
  simp only [exec, execLineInComesUp, Host.Outcome.next.injEq] at h
  subst h
  split <;> rfl

/-- The frame on line-in transmit lost with the line (R160). -/
theorem State.mergeDown_frame :
    s.mergeDown = { s with merge := s.mergeDown.merge, counters := s.mergeDown.counters,
                           agent := { s.agent with outbox := s.mergeDown.agent.outbox } } := by
  unfold State.mergeDown
  split
  · rfl
  · rename_i kind _ _ _
    cases kind <;> rfl
  · rfl

/-- A truncated frame counted and reported (R83). -/
theorem State.countTruncated_frame (f : Flow) :
    s.countTruncated f =
      { s with counters := (s.countTruncated f).counters, reports := (s.countTruncated f).reports } := rfl

/-- The receiver with the frame gone (R98, R104). -/
theorem State.leaveFrame_eq (next : LineInState) :
    s.leaveFrame next =
      { s with lineIn := LineInReceiver.empty next, classifier := none, store := s.store.returnChain s.lineIn.chain } := rfl

/-- The frame in reception lost with the line (R104). -/
theorem State.loseFrame_frame :
    s.loseFrame = { s with
      lineIn := LineInReceiver.empty .down, classifier := none, store := s.store.returnChain s.lineIn.chain,
      counters := s.loseFrame.counters, reports := s.loseFrame.reports,
      agent := { s.agent with inbox := s.agent.inbox.filter (fun e => e.complete) } } := by
  simp only [State.loseFrame, State.leaveFrame_eq]
  split
  · rw [State.countTruncated_frame]
    rfl
  · rfl

/-- Line-in going Down (R104, R150, R160). -/
theorem frame_lineInGoesDown (h : exec .lineInGoesDown s = .next t) :
    t = { s with lineIn := t.lineIn, classifier := t.classifier, store := t.store, merge := t.merge, counters := t.counters,
                 reports := t.reports, agent := t.agent } := by
  simp only [exec, execLineInGoesDown, Host.Outcome.next.injEq] at h
  subst h
  split
  · rw [State.mergeDown_frame, State.loseFrame_frame]
  · rfl

/-- The Return Merge's choice (R157). -/
theorem frame_returnMergeChoice (h : exec .returnMergeChoice s = .next t) :
    t = { s with merge := { s.merge with lastServed := t.merge.lastServed, transmitter := t.merge.transmitter },
                 reports := t.reports } := by
  simp only [exec, execReturnMergeChoice, Host.Outcome.next.injEq] at h
  subst h
  unfold State.mergeChoice State.serveAgent
  repeat' split
  all_goals rfl

/-- A completion on line-in transmit (R159). -/
theorem frame_transmissionCompletion (h : exec .lineInTransmissionCompletion s = .next t) :
    t = { s with merge := t.merge, agent := { s.agent with outbox := t.agent.outbox } } := by
  simp only [exec, execLineInTransmissionCompletion, Host.Outcome.next.injEq] at h
  subst h
  split
  · rename_i kind _ _
    cases kind <;> rfl
  · rfl

/-- The beginning of Restart Traffic reaches the agent (R146). -/
theorem frame_restartTraffic (h : exec .restartTraffic s = .next t) : t = { s with agent := t.agent } := by
  simp only [exec, execRestartTraffic, Host.Outcome.next.injEq] at h
  have hb := s.beginCommand_cases (InboxEntry.isCommand 0x12) [0] runRestartTraffic
  rw [h] at hb
  cases hb <;> rfl

/-- The completion of Restart Traffic reaches the agent (R147). -/
theorem frame_restartCompletion (h : exec .restartTrafficCompletion s = .next t) : t = { s with agent := t.agent } := by
  simp only [exec, execRestartTrafficCompletion, Host.Outcome.next.injEq] at h
  subst h
  split <;> rfl

/-- The receiver's part of Restart Traffic (R106). -/
theorem State.restartLineIn_frame :
    s.restartLineIn = { s with lineIn := s.restartLineIn.lineIn, store := s.restartLineIn.store,
                               counters := s.restartLineIn.counters, reports := s.restartLineIn.reports } := by
  unfold State.restartLineIn
  repeat' split
  all_goals rfl

/-- Restart Traffic at the Line-In Receiver (R146). -/
theorem frame_restartAtLineIn (h : exec .restartAtLineInReceiver s = .next t) :
    t = { s with lineIn := t.lineIn, store := t.store, counters := t.counters, reports := t.reports,
                 agent := { s.agent with execution := t.agent.execution } } := by
  simp only [exec, execRestartAtLineInReceiver, Host.Outcome.next.injEq] at h
  subst h
  split
  · rw [State.restartLineIn_frame]
  · rfl

end Frames

/-- No command touches the queue: every row's frame says so. -/
theorem exec_pending {c : Instr} {s t : State} (h : exec c s = .next t) : t.pending = s.pending := by
  induction c using Instr.byRows with
  | answered c hc => exact (answeredRow_frame c hc s t h).1
  | powerUpReset straps => rw [exec_powerUpReset s t h]
  | lineInStartDelimiter => exact (frame_reception s t _ (.inl rfl) h).1.pending
  | lineInByte b => exact (frame_reception s t _ (.inr (.inl ⟨b, rfl⟩)) h).1.pending
  | lineInEndDelimiter => exact (frame_reception s t _ (.inr (.inr (.inl rfl))) h).1.pending
  | lineInErrorSymbol => exact (frame_reception s t _ (.inr (.inr (.inr rfl))) h).1.pending
  | lineInComesUp => rw [frame_lineInComesUp s t h]
  | lineInGoesDown => rw [frame_lineInGoesDown s t h]
  | holdSymbol arg => rw [frame_holdSymbol s t arg h]
  | receivedSymbol symbol arg => rw [← Host.Outcome.next.inj h]
  | returnStartDelimiter => rw [frame_returns s t _ (.inl rfl) h]
  | returnByte b => rw [frame_returns s t _ (.inr (.inl ⟨b, rfl⟩)) h]
  | returnEndDelimiter => rw [frame_returns s t _ (.inr (.inr (.inl rfl))) h]
  | returnErrorSymbol => rw [frame_returns s t _ (.inr (.inr (.inr rfl))) h]
  | lineOutComesUp => rw [frame_lineOutComesUp s t h]
  | lineOutGoesDown => rw [frame_lineOutGoesDown s t h]
  | segmentCompletion => rw [frame_segmentCompletion s t h]
  | controlSymbolCompletion => rw [frame_controlSymbolCompletion s t h]
  | tickExpiry => rw [frame_tickExpiry s t h]
  | stallTimerExpiry l => rw [frame_stallTimerExpiry s t l h]
  | contextChange c f hc => rw [frame_contextChange s t c f hc h]
  | admissionRequest => rw [frame_admissionRequest s t h]
  | returnMergeChoice => rw [frame_returnMergeChoice s t h]
  | transmissionCompletion => rw [frame_transmissionCompletion s t h]
  | jobItemCompletion => rw [frame_jobItemCompletion s t h]
  | restartTraffic => rw [frame_restartTraffic s t h]
  | restartAtLineIn => rw [frame_restartAtLineIn s t h]
  | restartAtPacing => rw [(frame_restartAtPacingUnit s t h).1]
  | restartAtEgress => rw [(frame_restartAtEgress s t h).1]
  | restartCompletion => rw [frame_restartCompletion s t h]

/-- Every command answers a next state. -/
theorem exec_next (c : Instr) (s : State) : ∃ t, exec c s = .next t := by
  cases c <;> exact ⟨_, rfl⟩

/-- Settles O2: every arm of the dispatch answers next, and every row's frame keeps the queue. -/
theorem everyCommandCompletes : Obligations.EveryCommandCompletes := by
  intro c s
  obtain ⟨t, h⟩ := exec_next c s
  exact ⟨t, h, exec_pending h⟩

/-! ## The power-up values -/

/-- A label of the power-up settings: its base and the station (R131, R141). -/
theorem stationLabel (base : Word16) (straps : BitVec 4) :
    base + straps.zeroExtend 16 = BitVec.ofNat 16 (base.toNat + straps.toNat) := by
  apply BitVec.eq_of_toNat_eq
  have := straps.isLt
  simp [BitVec.toNat_add]

/-- Settles O3: the reset's next state is written out, so each value is read off it. -/
theorem powerUpResetLeavesPowerUpValues : Obligations.PowerUpResetLeavesPowerUpValues := by
  intro straps s
  refine ⟨{ State.powerUp straps with pending := s.pending, draws := s.draws }, by simp only [exec, execPowerUpReset], ?_⟩
  simp only [State.powerUp, LineInReceiver.empty, FrameStore.powerUp, PlanStore.powerUp, BankContents.powerUp, PacingUnit.powerUp,
    EgressScheduler.powerUp, ManagementAgent.powerUp, Settings.powerUp, CounterBank.powerUp, stationLabel, true_and, and_true]
  refine ⟨fun b => ?_, ?_, ?_, rfl, fun c => ?_, fun f c => ?_⟩
  · cases b <;> simp [PlanStore.bank]
  · simp
  · simp
  · simp [CounterBank.read]
  · simp [CounterBank.readFlow]

end Sys2Proof.Machine
end

section
/-! Pacing: the pass over a queue by what happens to its heads, as an induction over it (R67); what an evaluation passes (O36) and what
each mode lets it release (O37); what ticks do to the counters (O38) and what a context is at its use (O39). -/

namespace Sys2Proof.Machine

open Sys2Proof

/-! ## The pass over a queue (R67) -/

section Pass

variable (d : Descriptor) (tick : Word32) (draw : Nat) (flow : Flow)

/-- A property of every pass, by what happens to the head: no head, a head not allowed, a stale one, the one release of Interval mode, a
release with the pass going on. -/
theorem Descriptor.pass_induction {P : List QueuedFrame → Nat → PacingCounters → Evaluation → Prop}
    (nil : ∀ i c, P [] i c { queue := [], counters := c, released := [], stale := [] })
    (refused : ∀ f rest i c, d.allows c (blocksOf f.length) = false →
      P (f :: rest) i c { queue := f :: rest, counters := c, released := [], stale := [] })
    (stale : ∀ f rest i c r, d.allows c (blocksOf f.length) = true → d.stale tick f = true → d.pass tick draw flow rest (i + 1) c = r →
      P rest (i + 1) c r → P (f :: rest) i c { r with stale := f :: r.stale })
    (last : ∀ f rest i c, d.allows c (blocksOf f.length) = true → d.stale tick f = false → c.onePerEvaluation = true →
      P (f :: rest) i c { queue := rest, counters := d.afterRelease draw flow i c (blocksOf f.length),
                          released := [d.release f], stale := [] })
    (released : ∀ f rest i c c' r, d.allows c (blocksOf f.length) = true → d.stale tick f = false → c.onePerEvaluation = false →
      d.afterRelease draw flow i c (blocksOf f.length) = c' → d.pass tick draw flow rest (i + 1) c' = r →
      P rest (i + 1) c' r → P (f :: rest) i c { r with released := d.release f :: r.released })
    (queue : List QueuedFrame) : ∀ i c, P queue i c (d.pass tick draw flow queue i c) := by
  induction queue with
  | nil => exact nil
  | cons f rest ih =>
    intro i c
    cases ha : d.allows c (blocksOf f.length) with
    | false => rw [Descriptor.pass_refused d tick draw flow f rest i c ha]; exact refused f rest i c ha
    | true =>
      cases hs : d.stale tick f with
      | true => rw [Descriptor.pass_stale d tick draw flow f rest i c ha hs]; exact stale f rest i c _ ha hs rfl (ih _ _)
      | false =>
        cases ho : c.onePerEvaluation with
        | true => rw [Descriptor.pass_last d tick draw flow f rest i c _ ha hs rfl ho]; exact last f rest i c ha hs ho
        | false =>
          rw [Descriptor.pass_released d tick draw flow f rest i c _ ha hs rfl ho]
          exact released f rest i c _ _ ha hs ho rfl rfl (ih _ _)

/-- After one release an evaluation goes on only in another mode than Interval (R61). -/
def Evaluation.goesOn (r : Evaluation) : Prop := r.released = [] ∨ ∀ n, r.counters ≠ .interval n

/-- The counters of another mode than Interval stay of another mode. -/
theorem Descriptor.pass_notInterval (queue : List QueuedFrame) (i : Nat) (c : PacingCounters) (hc : c.onePerEvaluation = false) :
    ∀ n, (d.pass tick draw flow queue i c).counters ≠ .interval n := by
  refine Descriptor.pass_induction (P := fun _ _ c r => c.onePerEvaluation = false → ∀ n, r.counters ≠ .interval n) d tick draw flow
    ?_ ?_ ?_ ?_ ?_ queue i c hc
  · rintro i c hc n rfl; cases hc
  · rintro f rest i c - hc n rfl; cases hc
  · intro f rest i c r _ _ _ ih hc; exact ih hc
  · intro f rest i c _ _ ho hc; rw [ho] at hc; cases hc
  · intro f rest i c c' r _ _ ho hc' _ ih _
    refine ih ?_
    subst hc'
    cases c <;> simp_all [Descriptor.afterRelease, PacingCounters.onePerEvaluation]

/-- What a pass goes through: the heads it passed, and what it leaves of the queue; of the passed ones the stale are discarded and the
others released, each in order (R67 to R69). -/
theorem Descriptor.pass_passed (queue : List QueuedFrame) (i : Nat) (c : PacingCounters) :
    ∃ passed, queue = passed ++ (d.pass tick draw flow queue i c).queue ∧
      (d.pass tick draw flow queue i c).stale = passed.filter (d.stale tick) ∧
      (d.pass tick draw flow queue i c).released = (passed.filter (fun f => !d.stale tick f)).map d.release ∧
      ∀ before f after, passed = before ++ f :: after →
        (d.pass tick draw flow before i c).queue = [] ∧
        d.allows (d.pass tick draw flow before i c).counters (blocksOf f.length) = true ∧
        (d.pass tick draw flow before i c).goesOn := by
  refine Descriptor.pass_induction (P := fun queue i c r => ∃ passed, queue = passed ++ r.queue ∧ r.stale = passed.filter (d.stale tick) ∧
      r.released = (passed.filter (fun f => !d.stale tick f)).map d.release ∧
      ∀ before f after, passed = before ++ f :: after → (d.pass tick draw flow before i c).queue = [] ∧
        d.allows (d.pass tick draw flow before i c).counters (blocksOf f.length) = true ∧
        (d.pass tick draw flow before i c).goesOn) d tick draw flow ?_ ?_ ?_ ?_ ?_ queue i c
  · intro i c; exact ⟨[], rfl, rfl, rfl, by simp⟩
  · intro f rest i c _; exact ⟨[], rfl, rfl, rfl, by simp⟩
  · rintro f rest i c r ha hs - ⟨passed, hq, hst, hr, hb⟩
    refine ⟨f :: passed, by simp [← hq], by simp [hs, hst], by simp [hs, hr], ?_⟩
    rintro (_ | ⟨g, before⟩) x after hp
    · cases hp; exact ⟨rfl, ha, .inl rfl⟩
    · cases hp
      rw [Descriptor.pass_stale d tick draw flow _ before i c ha hs]
      exact hb before x after rfl
  · intro f rest i c ha hs ho
    refine ⟨[f], by simp, by simp [hs], by simp [hs], ?_⟩
    rintro (_ | ⟨g, before⟩) x after hp
    · cases hp; exact ⟨rfl, ha, .inl rfl⟩
    · simp at hp
  · rintro f rest i c c' r ha hs ho hc' hr' ⟨passed, hq, hst, hr, hb⟩
    refine ⟨f :: passed, by simp [← hq], by simp [hs, hst], by simp [hs, hr], ?_⟩
    rintro (_ | ⟨g, before⟩) x after hp
    · cases hp; exact ⟨rfl, ha, .inl rfl⟩
    · cases hp
      have hall := Descriptor.pass_notInterval d tick draw flow (f :: before) i c ho
      obtain ⟨h1, h2, -⟩ := hb before x after rfl
      rw [Descriptor.pass_released d tick draw flow _ before i c c' ha hs hc' ho] at hall ⊢
      exact ⟨h1, h2, .inr hall⟩

/-- Where a pass stops short of the queue's end: at a head the mode does not allow, or after the one release of Interval mode (R67). -/
theorem Descriptor.pass_stops (queue : List QueuedFrame) (i : Nat) (c : PacingCounters) :
    ∀ f rest, (d.pass tick draw flow queue i c).queue = f :: rest →
      d.allows (d.pass tick draw flow queue i c).counters (blocksOf f.length) = false ∨
      ((d.pass tick draw flow queue i c).released ≠ [] ∧ ∃ n, (d.pass tick draw flow queue i c).counters = .interval n) := by
  refine Descriptor.pass_induction (P := fun _ _ _ r => ∀ f rest, r.queue = f :: rest →
    d.allows r.counters (blocksOf f.length) = false ∨ (r.released ≠ [] ∧ ∃ n, r.counters = .interval n)) d tick draw flow
    ?_ ?_ ?_ ?_ ?_ queue i c
  · intro i c f rest h; cases h
  · intro f rest i c ha g rest' h; cases h; exact .inl ha
  · intro f rest i c r _ _ _ ih; exact ih
  · intro f rest i c _ _ ho g rest' _
    cases c <;> simp_all [Descriptor.afterRelease, PacingCounters.onePerEvaluation]
  · intro f rest i c c' r _ _ _ _ _ ih g rest' h
    exact (ih g rest' h).imp id fun hn => ⟨by simp, hn.2⟩

/-- A pass that releases nothing leaves the counters (R68). -/
theorem Descriptor.pass_counters_of_none (queue : List QueuedFrame) (i : Nat) (c : PacingCounters) :
    (d.pass tick draw flow queue i c).released = [] → (d.pass tick draw flow queue i c).counters = c := by
  refine Descriptor.pass_induction (P := fun _ _ c r => r.released = [] → r.counters = c) d tick draw flow ?_ ?_ ?_ ?_ ?_ queue i c
  · intro i c _; rfl
  · intro f rest i c _ _; rfl
  · intro f rest i c r _ _ _ ih h; exact ih h
  · intro f rest i c _ _ _ h; cases h
  · intro f rest i c c' r _ _ _ _ _ _ h; cases h

end Pass

/-- Settles O36: the induction over the pass, read at an evaluation's start. -/
theorem evaluationReleasesInQueueOrder : Obligations.EvaluationReleasesInQueueOrder := by
  intro d tick draw flow ctx queue
  obtain ⟨passed, hq, hs, hr, hb⟩ := d.pass_passed tick draw flow queue 0 (d.countersOf ctx)
  exact ⟨passed, hq, hs, hr, d.pass_stops tick draw flow queue 0 _, d.pass_counters_of_none tick draw flow queue 0 _, hb⟩

/-! ## What each mode lets a pass release (R60 to R66) -/

section Modes

variable (d : Descriptor) (tick : Word32) (draw : Nat) (flow : Flow) (queue : List QueuedFrame) (i : Nat)

/-- An Open flow empties its queue (R60). -/
theorem Descriptor.pass_open :
    (d.pass tick draw flow queue i .openMode).queue = [] ∧ (d.pass tick draw flow queue i .openMode).counters = .openMode := by
  refine Descriptor.pass_induction (P := fun _ _ c r => c = .openMode → r.queue = [] ∧ r.counters = .openMode) d tick draw flow
    ?_ ?_ ?_ ?_ ?_ queue i .openMode rfl
  · rintro i c rfl; exact ⟨rfl, rfl⟩
  · rintro f rest i c ha rfl; cases ha
  · intro f rest i c r _ _ _ ih; exact ih
  · rintro f rest i c _ _ ho rfl; cases ho
  · rintro f rest i c c' r _ _ _ rfl _ ih rfl; exact ih rfl

/-- The blocks of the frames released (R62). -/
def Evaluation.blocksReleased (r : Evaluation) : Nat := (r.released.map (fun f => blocksOf f.length)).sum

/-- An Interval flow releases at most one frame, at Countdown 0 only (R61). -/
theorem Descriptor.pass_interval (countdown : Nat) :
    let r := d.pass tick draw flow queue i (.interval countdown)
    r.released.length ≤ 1 ∧ (countdown ≠ 0 → r.released.length = 0 ∧ r.queue = queue) ∧
      (r.released.length = 1 → r.counters = .interval d.param1.toNat) ∧ (countdown = 0 → r.queue ≠ [] → r.released.length = 1) := by
  refine Descriptor.pass_induction (P := fun queue _ c r => c = .interval countdown → r.released.length ≤ 1 ∧
    (countdown ≠ 0 → r.released.length = 0 ∧ r.queue = queue) ∧ (r.released.length = 1 → r.counters = .interval d.param1.toNat) ∧
    (countdown = 0 → r.queue ≠ [] → r.released.length = 1)) d tick draw flow ?_ ?_ ?_ ?_ ?_ queue i _ rfl
  · rintro i c rfl; simp
  · rintro f rest i c ha rfl; simp_all [Descriptor.allows]
  · rintro f rest i c r ha _ _ ih rfl
    have h0 : countdown = 0 := by simpa [Descriptor.allows] using ha
    obtain ⟨h1, -, h3, h4⟩ := ih rfl
    exact ⟨h1, fun h => absurd h0 h, h3, h4⟩
  · rintro f rest i c ha _ _ rfl
    have h0 : countdown = 0 := by simpa [Descriptor.allows] using ha
    exact ⟨Nat.le_refl 1, fun h => absurd h0 h, fun _ => rfl, fun _ _ => rfl⟩
  · rintro f rest i c c' r _ _ ho _ _ _ rfl; cases ho

/-- A Credit flow pays for the blocks it releases, and stops at a head it cannot pay for (R62). -/
theorem Descriptor.pass_credit (credit : Nat) :
    let r := d.pass tick draw flow queue i (.credit credit)
    r.blocksReleased ≤ credit ∧ r.counters = .credit (credit - r.blocksReleased) ∧
      ∀ f rest, r.queue = f :: rest → credit - r.blocksReleased < blocksOf f.length := by
  refine Descriptor.pass_induction (P := fun _ _ c r => ∀ credit, c = .credit credit → r.blocksReleased ≤ credit ∧
    r.counters = .credit (credit - r.blocksReleased) ∧ ∀ f rest, r.queue = f :: rest → credit - r.blocksReleased < blocksOf f.length)
    d tick draw flow ?_ ?_ ?_ ?_ ?_ queue i _ credit rfl
  · rintro i c credit rfl; simp [Evaluation.blocksReleased]
  · rintro f rest i c ha credit rfl
    simp only [Descriptor.allows, decide_eq_false_iff_not, Nat.not_le] at ha
    simp [Evaluation.blocksReleased, ha]
  · intro f rest i c r _ _ _ ih; exact ih
  · rintro f rest i c _ _ ho credit rfl; cases ho
  · rintro f rest i c c' r ha _ _ rfl _ ih credit rfl
    have ha : blocksOf f.length ≤ credit := by simpa [Descriptor.allows] using ha
    obtain ⟨h1, h2, h3⟩ := ih _ rfl
    have hsum : Evaluation.blocksReleased { r with released := d.release f :: r.released } = blocksOf f.length + r.blocksReleased := by
      simp [Evaluation.blocksReleased, Descriptor.release]
    rw [hsum]
    refine ⟨by omega, by rw [h2, Nat.sub_sub], fun g rest' h => ?_⟩
    have := h3 g rest' h
    omega

/-- An open gate without a Burst empties the queue (R64). -/
theorem Descriptor.pass_gate_noBurst (h0 : d.param3 = 0) (position : Nat) (released : Byte) :
    (d.pass tick draw flow queue i (.gate .opened position released)).queue = [] := by
  refine Descriptor.pass_induction (P := fun _ _ c r => ∀ released, c = .gate .opened position released → r.queue = []) d tick draw flow
    ?_ ?_ ?_ ?_ ?_ queue i _ released rfl
  · intro i c _ _; rfl
  · rintro f rest i c ha released rfl; simp [Descriptor.allows, h0] at ha
  · intro f rest i c r _ _ _ ih; exact ih
  · rintro f rest i c _ _ ho released rfl; cases ho
  · rintro f rest i c c' r _ _ _ rfl _ ih released rfl; exact ih _ rfl

/-- An open gate with a Burst releases up to it, counted in Released, and stops with the Burst used (R64). -/
theorem Descriptor.pass_gate_burst (h0 : d.param3 ≠ 0#16) (hmax : d.param3.toNat ≤ 255) (position : Nat) (released : Byte) :
    let r := d.pass tick draw flow queue i (.gate .opened position released)
    (r.released.length = 0 ∨ released.toNat + r.released.length ≤ d.param3.toNat) ∧
      r.counters = .gate .opened position (released + BitVec.ofNat 8 r.released.length) ∧
      (r.queue ≠ [] → d.param3.toNat ≤ released.toNat + r.released.length) := by
  refine Descriptor.pass_induction (P := fun _ _ c r => ∀ released : Byte, c = .gate .opened position released →
    (r.released.length = 0 ∨ released.toNat + r.released.length ≤ d.param3.toNat) ∧
    r.counters = .gate .opened position (released + BitVec.ofNat 8 r.released.length) ∧
    (r.queue ≠ [] → d.param3.toNat ≤ released.toNat + r.released.length)) d tick draw flow ?_ ?_ ?_ ?_ ?_ queue i _ released rfl
  · rintro i c released rfl; simp
  · rintro f rest i c ha released rfl
    have ha : d.param3.toNat ≤ released.toNat := by simpa [Descriptor.allows, h0] using ha
    simp [ha]
  · intro f rest i c r _ _ _ ih; exact ih
  · rintro f rest i c _ _ ho released rfl; cases ho
  · rintro f rest i c c' r ha _ _ rfl _ ih released rfl
    have ha : released.toNat < d.param3.toNat := by simpa [Descriptor.allows, h0] using ha
    have hstep : (released + 1).toNat = released.toNat + 1 := by
      rw [BitVec.toNat_add]; simp; omega
    have hne : released ≠ 0xFF#8 := by rintro rfl; simp at ha; omega
    obtain ⟨h1, h2, h3⟩ := ih (released + 1) (by simp only [Descriptor.afterRelease, if_neg hne])
    rw [hstep] at h1 h3
    refine ⟨.inr ?_, ?_, fun hq => ?_⟩
    · simp only [List.length_cons]; omega
    · rw [h2, List.length_cons, BitVec.add_assoc, Nat.add_comm, BitVec.ofNat_add]
      rfl
    · have := h3 hq
      simp only [List.length_cons]; omega

/-- A shut gate judges no head (R64). -/
theorem Descriptor.pass_gate_shut (position : Nat) (released : Byte) :
    d.pass tick draw flow queue i (.gate .shut position released) =
      { queue := queue, counters := .gate .shut position released, released := [], stale := [] } := by
  cases queue with
  | nil => rfl
  | cons f rest => exact d.pass_refused tick draw flow f rest i _ rfl

/-- A Tiered flow keeps both quotas, counts in both, and stops with one of them used (R66). -/
theorem Descriptor.pass_tiered (t s w e : Nat) :
    let r := d.pass tick draw flow queue i (.tiered t s w e)
    (r.released.length = 0 ∨ (s + r.released.length ≤ d.param2.toNat ∧ e + r.released.length ≤ d.param4.toNat)) ∧
      (r.queue ≠ [] → d.param2.toNat ≤ s + r.released.length ∨ d.param4.toNat ≤ e + r.released.length) ∧
      r.counters = .tiered t (s + r.released.length) w (e + r.released.length) := by
  refine Descriptor.pass_induction (P := fun _ _ c r => ∀ s e, c = .tiered t s w e →
    (r.released.length = 0 ∨ (s + r.released.length ≤ d.param2.toNat ∧ e + r.released.length ≤ d.param4.toNat)) ∧
    (r.queue ≠ [] → d.param2.toNat ≤ s + r.released.length ∨ d.param4.toNat ≤ e + r.released.length) ∧
    r.counters = .tiered t (s + r.released.length) w (e + r.released.length)) d tick draw flow ?_ ?_ ?_ ?_ ?_ queue i _ s e rfl
  · rintro i c s e rfl; simp
  · rintro f rest i c ha s e rfl
    simp only [Descriptor.allows, Bool.and_eq_false_iff, decide_eq_false_iff_not, Nat.not_lt] at ha
    simp [ha]
  · intro f rest i c r _ _ _ ih; exact ih
  · rintro f rest i c _ _ ho s e rfl; cases ho
  · rintro f rest i c c' r ha _ _ rfl _ ih s e rfl
    simp only [Descriptor.allows, Bool.and_eq_true, decide_eq_true_eq] at ha
    obtain ⟨h1, h2, h3⟩ := ih _ _ rfl
    simp only [List.length_cons]
    refine ⟨by omega, fun hq => ?_, ?_⟩
    · have := h2 hq
      omega
    · simp only [h3, Nat.add_assoc, Nat.add_comm 1]

end Modes

/-- Settles O37: one lemma for each mode, read at an evaluation's start. -/
theorem modesLimitWhatAnEvaluationReleases : Obligations.ModesLimitWhatAnEvaluationReleases := by
  intro d tick draw flow ctx queue r n
  have hr : r = d.pass tick draw flow queue 0 (d.countersOf ctx) := rfl
  refine ⟨fun blocks => ⟨rfl, ?_, ?_, ?_, ?_⟩, fun h => ?_, fun countdown h => ?_, fun credit h => ?_, fun position released h => ⟨fun h0 => ?_,
    fun h0 hmax => ?_⟩, fun position released h => ?_, fun t s w e h => ?_⟩
  · intro countdown; simp [Descriptor.allows]
  · intro credit; simp [Descriptor.allows]
  · intro phase position released; simp [Descriptor.allows]
  · intro t s w e; simp [Descriptor.allows]
  all_goals rw [h] at hr
  · rw [hr]; exact d.pass_open tick draw flow queue 0
  · have := d.pass_interval tick draw flow queue 0 countdown
    rwa [← hr] at this
  · have := d.pass_credit tick draw flow queue 0 credit
    rwa [← hr] at this
  · rw [hr]; exact d.pass_gate_noBurst tick draw flow queue 0 h0 position released
  · have := d.pass_gate_burst tick draw flow queue 0 h0 hmax position released
    rwa [← hr] at this
  · simp only [n, hr, d.pass_gate_shut tick draw flow queue 0 position released]
    simp
  · have := d.pass_tiered tick draw flow queue 0 t s w e
    rwa [← hr] at this

/-! ## The counters at ticks (R61 to R65) -/

section Ticks

variable (d : Descriptor)

theorem Descriptor.advance_open : d.advance .openMode = .openMode := rfl

theorem Descriptor.advance_interval (n : Nat) : d.advance (.interval n) = .interval (n - 1) := rfl

theorem Descriptor.advance_credit (c : Nat) : d.advance (.credit c) = .credit (min (c + d.param1.toNat) d.param2.toNat) := rfl

/-- A tick within the open phase (R63). -/
theorem Descriptor.advance_opened (position : Nat) (released : Byte) :
    d.advance (.gate .opened position released) =
      if d.param1.toNat ≤ position + 1 then .gate .shut 0 released else .gate .opened (position + 1) released :=
  d.gateChange_opened _ _

/-- A tick within the shut phase (R63). -/
theorem Descriptor.advance_shut (position : Nat) (released : Byte) :
    d.advance (.gate .shut position released) =
      if d.param2.toNat ≤ position + 1 then .gate .opened 0 0 else .gate .shut (position + 1) released :=
  d.gateChange_shut _ _

/-- A tick of a Tiered context: the window's end, then the epoch's (R65; log 18). -/
theorem Descriptor.advance_tiered (t s w e : Nat) :
    d.advance (.tiered t s w e) =
      if d.param1.toNat ≤ t + 1 then (if d.param3.toNat ≤ w + 1 then .tiered 0 0 0 0 else .tiered 0 0 (w + 1) e)
      else (if d.param3.toNat ≤ w then .tiered (t + 1) s 0 0 else .tiered (t + 1) s w e) := by
  simp only [Descriptor.advance, Descriptor.windowChange]
  split <;> simp only [Descriptor.epochChange]

/-- Refills up to the Ceiling (R62). -/
theorem Descriptor.iterate_credit (n credit : Nat) (h : credit ≤ d.param2.toNat ∨ 0 < n) :
    Nat.iterate d.advance n (.credit credit) = .credit (min (credit + n * d.param1.toNat) d.param2.toNat) := by
  induction n generalizing credit with
  | zero => simp at h; simp [h]
  | succ n ih =>
    rw [Function.iterate_succ_apply, Descriptor.advance_credit, ih _ (.inl (Nat.min_le_right _ _)), Nat.succ_mul]
    congr 1
    generalize n * d.param1.toNat = k
    omega

/-- Ticks short of the end of the open phase (R63). -/
theorem Descriptor.iterate_opened (n position : Nat) (released : Byte) (h : position + n < d.param1.toNat) :
    Nat.iterate d.advance n (.gate .opened position released) = .gate .opened (position + n) released := by
  induction n with
  | zero => rfl
  | succ n ih => rw [Function.iterate_succ_apply', ih (by omega), Descriptor.advance_opened, if_neg (by omega)]; rfl

/-- Ticks short of the end of the shut phase (R63). -/
theorem Descriptor.iterate_shut (n position : Nat) (released : Byte) (h : position + n < d.param2.toNat) :
    Nat.iterate d.advance n (.gate .shut position released) = .gate .shut (position + n) released := by
  induction n with
  | zero => rfl
  | succ n ih => rw [Function.iterate_succ_apply', ih (by omega), Descriptor.advance_shut, if_neg (by omega)]; rfl

/-- Ticks short of the window's end (R65). -/
theorem Descriptor.iterate_tiered (n t s w e : Nat) (hw : w < d.param3.toNat) (h : t + n < d.param1.toNat) :
    Nat.iterate d.advance n (.tiered t s w e) = .tiered (t + n) s w e := by
  induction n with
  | zero => rfl
  | succ n ih =>
    rw [Function.iterate_succ_apply', ih (by omega), Descriptor.advance_tiered, if_neg (by omega), if_neg (by omega)]
    rfl

/-- The tick that ends a window, and the epoch with its last one (R65). -/
theorem Descriptor.advance_windowEnd (t s w e : Nat) (hw : w < d.param3.toNat) (h : d.param1.toNat ≤ t + 1) :
    d.advance (.tiered t s w e) = if w + 1 = d.param3.toNat then .tiered 0 0 0 0 else .tiered 0 0 (w + 1) e := by
  rw [Descriptor.advance_tiered, if_pos h]
  exact if_congr (by omega) rfl rfl

/-- Over a whole number of ticks above 0, all but the last and then the last. -/
theorem iterate_pred {α : Type} (f : α → α) (n : Nat) (x : α) (h : 0 < n) : Nat.iterate f n x = f (Nat.iterate f (n - 1) x) := by
  obtain ⟨m, rfl⟩ := Nat.exists_eq_succ_of_ne_zero (Nat.ne_of_gt h)
  exact Function.iterate_succ_apply' f m x

end Ticks

/-- Settles O38: within a phase or window by induction on the ticks, at its end by the one tick that ends it. -/
theorem ticksAdvanceThePacingCounters : Obligations.TicksAdvanceThePacingCounters := by
  intro d
  refine ⟨fun n => ?_, fun n countdown => ?_, fun n credit h => d.iterate_credit n credit h,
    fun position released => ⟨fun n h => d.iterate_opened n position released h, fun h => ?_,
      fun n h => d.iterate_shut n position released h, fun h => ?_⟩,
    fun released => ⟨fun h => ?_, fun h => ?_⟩,
    fun t s w e hw => ⟨fun n h => d.iterate_tiered n t s w e hw h, fun h => d.advance_windowEnd t s w e hw h⟩,
    fun s w e hw h => ?_, fun t s w e hw => ?_⟩
  · exact Function.iterate_fixed d.advance_open n
  · induction n with
    | zero => rfl
    | succ n ih => rw [Function.iterate_succ_apply', ih, Descriptor.advance_interval, Nat.sub_sub]
  · rw [Descriptor.advance_opened, if_pos h]
  · rw [Descriptor.advance_shut, if_pos h]
  · rw [iterate_pred _ _ _ h, d.iterate_opened _ 0 released (by omega), Descriptor.advance_opened, if_pos (by omega)]
  · rw [iterate_pred _ _ _ h, d.iterate_shut _ 0 released (by omega), Descriptor.advance_shut, if_pos (by omega)]
  · rw [iterate_pred _ _ _ h, d.iterate_tiered _ 0 s w e hw (by omega), d.advance_windowEnd _ s w e hw (by omega)]
  · rw [Descriptor.advance_tiered, if_pos (Nat.le_succ_of_le hw), if_pos hw]

/-! ## A context at its use (R58, R59) -/

section Contexts

variable (d : Descriptor) (ctx : Option PacingContext)

/-- A context that is none, or built for another Generation or Mode, is out of date (R58). -/
theorem Descriptor.upToDate_eq_false (h : ∀ c, ctx = some c → c.generation ≠ d.generation ∨ c.counters.mode ≠ d.mode) :
    d.upToDate ctx = false := by
  cases ctx with
  | none => rfl
  | some c => simpa [Descriptor.upToDate, ← not_and_or] using h c rfl

/-- An out-of-date context starts from the initial counters (R58). -/
theorem Descriptor.countersOf_outOfDate (h : d.upToDate ctx = false) : d.countersOf ctx = d.initialCounters := by
  cases ctx with
  | none => rfl
  | some c => simp [Descriptor.countersOf, h]

/-- An up-to-date context goes on from its counters, a Credit lowered to the Ceiling (R59). -/
theorem Descriptor.countersOf_upToDate (c : PacingContext) (h : d.upToDate (some c) = true) :
    d.countersOf (some c) = d.lowerCredit c.counters := by
  simp [Descriptor.countersOf, h]

end Contexts

/-- The sweep advances the context of a Present flow that is up to date (R58). -/
theorem Descriptor.tickContext_upToDate (d : Descriptor) {ctx : Option PacingContext} (hp : d.present = true)
    (hup : d.upToDate ctx = true) :
    d.tickContext ctx = some { generation := d.generation, counters := d.advance (d.countersOf ctx) } := by
  simp [Descriptor.tickContext, hp, hup]

/-- Settles O39: a context is out of date, and starts afresh, or up to date, and goes on. -/
theorem contextIsBuiltForGenerationAndMode : Obligations.ContextIsBuiltForGenerationAndMode := by
  intro d ctx
  refine ⟨fun h => by simp [Descriptor.tickContext, h], fun h => ?_, fun c hctx hg hm => ⟨_, rfl, ?_⟩⟩
  · intro initial
    have hinit : d.initialCounters = initial := by rfl
    have hout := d.upToDate_eq_false ctx h
    exact ⟨(d.countersOf_outOfDate ctx hout).trans hinit, fun hp => by simp [Descriptor.tickContext, hp, hout, hinit]⟩
  · subst hctx
    have hup : d.upToDate (some c) = true := by simp [Descriptor.upToDate, hg, hm]
    have hcount : d.countersOf (some c) = match c.counters with
        | .credit n => if d.param2.toNat < n then .credit d.param2.toNat else .credit n
        | other => other := by
      rw [d.countersOf_upToDate c hup]
      cases c.counters with
      | credit n =>
        simp only [Descriptor.lowerCredit]
        split <;> congr 1 <;> omega
      | _ => rfl
    exact ⟨hcount, fun hp => (d.tickContext_upToDate hp hup).trans
      (congrArg (fun k => some (PacingContext.mk d.generation (d.advance k))) hcount)⟩

end Sys2Proof.Machine
end

section
/-! Where the frames of the part are: the records held by the Pacing Unit and the Egress Scheduler as one multiset, and what every
shared operation does with them. An operation moves records and gives some up; the chains of those it gives up go to the free list, and
no byte of the store changes. The block law (R76) and the laws of the stored frames (R99) both rest on this. -/

namespace Sys2Proof.Machine

open Sys2Proof

/-! ## The records as multisets -/

/-- The records of a list of frames. -/
def bag {α : Type} (record : α → FrameRecord) (q : List α) : Multiset FrameRecord := q.map record

section Bags

variable {α : Type} (record : α → FrameRecord)

@[simp] theorem bag_nil : bag record [] = 0 := rfl
@[simp] theorem bag_cons (f : α) (q : List α) : bag record (f :: q) = record f ::ₘ bag record q := rfl
@[simp] theorem bag_append (p q : List α) : bag record (p ++ q) = bag record p + bag record q := by simp [bag]

/-- The frames of a list, parted by a test. -/
theorem bag_filter (p : α → Bool) (q : List α) :
    bag record q = bag record (q.filter p) + bag record (q.filter (fun f => !p f)) := by
  induction q with
  | nil => rfl
  | cons f q ih => cases h : p f <;> simp [h, ih]

/-- Lists put together, after a change of the one at one place. -/
theorem bag_flatMap_change {ι : Type} (g g' : ι → List α) (i : ι) (places : List ι) (hn : places.Nodup) (hi : i ∈ places)
    (h : ∀ j, j ≠ i → g' j = g j) :
    bag record (places.flatMap g') + bag record (g i) = bag record (places.flatMap g) + bag record (g' i) := by
  induction places with
  | nil => simp at hi
  | cons j rest ih =>
    obtain ⟨hj, hn⟩ := List.nodup_cons.1 hn
    simp only [List.flatMap_cons, bag_append]
    by_cases hij : i = j
    · subst hij
      have hrest : rest.flatMap g' = rest.flatMap g :=
        List.flatMap_congr fun k hk => h k (fun hki => hj (hki ▸ hk))
      rw [hrest, add_right_comm, add_comm (bag record (g' i)), add_right_comm]
    · rw [h j (Ne.symm hij), add_assoc, add_assoc, ih hn ((List.mem_cons.1 hi).resolve_left hij)]

end Bags

/-- The records of the frames of a queue. -/
abbrev queueBag (q : List QueuedFrame) : Multiset FrameRecord := bag (fun f : QueuedFrame => f.toFrameRecord) q

/-- The records of the frames of a lane. -/
abbrev laneBag (q : List ReleasedFrame) : Multiset FrameRecord := bag (fun f : ReleasedFrame => f.toFrameRecord) q

/-- The records of started frames. -/
abbrev sentBag (q : List SentFrame) : Multiset FrameRecord := bag (fun f : SentFrame => f.toFrameRecord) q

/-- The records of the frames of all queues. -/
def queuesBag (queues : Vector (List QueuedFrame) 256) : Multiset FrameRecord :=
  queueBag (allFlows.flatMap (fun f : Flow => queues[f]))

/-- The records of the frames of all lanes. -/
def lanesBag (lanes : Vector (List ReleasedFrame) 4) : Multiset FrameRecord :=
  laneBag (allLevels.flatMap (fun l : Level => lanes[l]))

/-- The records the Pacing Unit holds: the requests and the queues. -/
def PacingUnit.frames (p : PacingUnit) : Multiset FrameRecord := p.requests + queuesBag p.queues

/-- The records the Egress Scheduler holds: the lanes, the slot and the stack. -/
def EgressScheduler.frames (e : EgressScheduler) : Multiset FrameRecord :=
  lanesBag e.lanes + sentBag e.current.toList + sentBag e.stack

/-- The records of every frame that is wholly received and held. -/
def State.frames (s : State) : Multiset FrameRecord := s.pacing.frames + s.egress.frames

/-- The blocks of the chains of these records. -/
def chainBlocks (frames : Multiset FrameRecord) : Multiset BlockNo := frames.bind (fun f => (f.chain : Multiset BlockNo))

@[simp] theorem chainBlocks_zero : chainBlocks 0 = 0 := rfl
@[simp] theorem chainBlocks_add (a b : Multiset FrameRecord) : chainBlocks (a + b) = chainBlocks a + chainBlocks b := by
  simp [chainBlocks]
@[simp] theorem chainBlocks_cons (f : FrameRecord) (a : Multiset FrameRecord) :
    chainBlocks (f ::ₘ a) = f.chain + chainBlocks a := by
  simp [chainBlocks]
@[simp] theorem chainBlocks_singleton (f : FrameRecord) : chainBlocks {f} = f.chain := by simp [chainBlocks]

theorem chainBlocks_bag {α : Type} (record : α → FrameRecord) (q : List α) :
    chainBlocks (bag record q) = (q.flatMap (fun f => (record f).chain) : List BlockNo) := by
  induction q with
  | nil => rfl
  | cons f q ih => simp [ih, ← Multiset.coe_add]

/-! ## All queues and all lanes -/

/-- The frames of the queues after one queue is replaced. -/
theorem queuesBag_set (queues : Vector (List QueuedFrame) 256) (f : Flow) (q : List QueuedFrame) :
    queuesBag (queues.set f q) + queueBag queues[f] = queuesBag queues + queueBag q := by
  have h := bag_flatMap_change (fun f : QueuedFrame => f.toFrameRecord) (fun g : Flow => queues[g]) (fun g : Flow => (queues.set f q)[g]) f
    allFlows (List.nodup_finRange 256) (List.mem_finRange f)
    (fun g hg => by simp [Fin.getElem_fin, Vector.getElem_set_ne _ _ (fun hh => hg (Fin.ext hh.symm))])
  simpa [queuesBag] using h

/-- The frames of the queues, each queue parted in what is left, released and discarded. -/
theorem queuesBag_part (queues : Vector (List QueuedFrame) 256) (left : Flow → List QueuedFrame) (released : Flow → List ReleasedFrame)
    (stale : Flow → List QueuedFrame)
    (h : ∀ f : Flow, queueBag queues[f] = queueBag (left f) + laneBag (released f) + queueBag (stale f)) :
    queuesBag queues = queuesBag (Vector.ofFn left) + laneBag (allFlows.flatMap released) + queueBag (allFlows.flatMap stale) := by
  simp only [queuesBag, Fin.getElem_fin, Vector.getElem_ofFn] at h ⊢
  generalize allFlows = flows
  induction flows with
  | nil => rfl
  | cons f rest ih =>
    simp only [List.flatMap_cons, bag_append, h, ih]
    abel

/-- A lane's head taken out of it. -/
theorem lanesBag_pop {lanes : Vector (List ReleasedFrame) 4} {l : Level} {f : ReleasedFrame} {rest : List ReleasedFrame}
    (h : lanes[l] = f :: rest) : lanesBag (lanes.set l rest) + {f.toFrameRecord} = lanesBag lanes := by
  have hset := bag_flatMap_change (fun f : ReleasedFrame => f.toFrameRecord) (fun k : Level => lanes[k])
    (fun k : Level => (lanes.set l rest)[k]) l allLevels (by decide) (mem_allLevels l)
    (fun k hk => by simp [Fin.getElem_fin, Vector.getElem_set_ne _ _ (fun hh => hk (Fin.ext hh.symm))])
  simp only [h, bag_cons, ← Multiset.singleton_add] at hset
  rw [← add_assoc, Fin.getElem_fin (lanes.set l rest), Vector.getElem_set_self] at hset
  exact add_right_cancel hset

/-- Released frames inserted into the lanes by their levels. -/
theorem lanesBag_insert (lanes : Vector (List ReleasedFrame) 4) (released : List ReleasedFrame) :
    lanesBag (Vector.ofFn (fun l : Level => lanes[l] ++ released.filter (fun f : ReleasedFrame => f.level == l))) =
      lanesBag lanes + laneBag released := by
  have hlevels : laneBag (allLevels.flatMap (fun l : Level => released.filter (fun f : ReleasedFrame => f.level == l))) =
      laneBag released := by
    induction released with
    | nil => rfl
    | cons f rest ih =>
      rw [show laneBag (f :: rest) = f.toFrameRecord ::ₘ laneBag rest from rfl, ← ih]
      match hf : f.level with
      | 0 => simp [allLevels, hf]
      | 1 => simp [allLevels, hf]
      | 2 => simp [allLevels, hf]
      | 3 => simp [allLevels, hf]
  rw [← hlevels]
  simp only [lanesBag, Fin.getElem_fin, Vector.getElem_ofFn]
  generalize allLevels = levels
  induction levels with
  | nil => rfl
  | cons l rest ih =>
    simp only [List.flatMap_cons, bag_append, ih]
    abel

@[simp] theorem lanesBag_replicate : lanesBag (Vector.replicate 4 []) = 0 := by simp [lanesBag, allLevels]

/-! ## Where every block is (R76) -/

/-- Lists of chains put together, and then their blocks. -/
theorem flatten_flatMap_map {α β : Type} (g : β → List BlockNo) (q : α → List β) (l : List α) :
    (l.flatMap (fun x => (q x).map g)).flatten = l.flatMap (fun x => (q x).flatMap g) := by
  induction l with
  | nil => rfl
  | cons x l ih => rw [List.flatMap_cons, List.flatMap_cons, List.flatten_append, ih, ← List.flatMap_def]

/-- Blocks returned in any order stand in the free list. -/
theorem coe_reverse_append (returned free : List BlockNo) :
    ((returned.reverse ++ free : List BlockNo) : Multiset BlockNo) = returned + free := by
  rw [← Multiset.coe_add, Multiset.coe_reverse]

/-- Every place a block stands in: the free list, the partial chain, the chains of the frames held. -/
def State.blocks (s : State) : Multiset BlockNo := s.store.free + s.lineIn.chain + chainBlocks s.frames

/-- The same places as the law's list of them. -/
theorem State.coe_blockPlaces (s : State) : (s.blockPlaces : Multiset BlockNo) = s.blocks := by
  have hflat : ∀ {α : Type} (g : α → List BlockNo) (l : List α), (l.map g).flatten = l.flatMap g := fun g l => (List.flatMap_def ..).symm
  have hrequests : chainBlocks s.pacing.requests = (s.pacing.requests.flatMap (fun f : FrameRecord => f.chain) : List BlockNo) := by
    simp [chainBlocks, Multiset.coe_bind]
  simp only [State.blockPlaces, State.chains, State.blocks, State.frames, PacingUnit.frames, EgressScheduler.frames, chainBlocks_add,
    queuesBag, lanesBag, chainBlocks_bag, hrequests, List.flatten_append, hflat,
    flatten_flatMap_map, List.flatMap_assoc, ← Multiset.coe_add, List.flatten_singleton]
  abel

/-- The block law, said of these places. -/
theorem State.blocksOnce_iff (s : State) : s.BlocksOnce ↔ ∀ b, s.blocks.count b = 1 := by
  simp only [State.BlocksOnce, ← State.coe_blockPlaces, Multiset.coe_count]

/-- What keeps the places keeps the block law. -/
theorem State.BlocksOnce.of_blocks {s t : State} (h : s.BlocksOnce) (hb : t.blocks = s.blocks) : t.BlocksOnce := by
  rw [State.blocksOnce_iff] at h ⊢
  rwa [hb]

/-! ## Operations that move frames -/

/-- What an operation does that moves records and gives some up: the receiver and the store's bytes stay, and the chains of the records
given up go to the free list (R85). -/
structure Moves (s t : State) : Prop where
  lineIn : t.lineIn = s.lineIn
  mem : t.store.mem = s.store.mem
  frames : ∃ gone, t.frames + gone = s.frames ∧ (t.store.free : Multiset BlockNo) = chainBlocks gone + s.store.free

/-- An operation that leaves the records and the store. -/
theorem Moves.of_same {s t : State} (hl : t.lineIn = s.lineIn) (hs : t.store = s.store) (hf : t.frames = s.frames) : Moves s t :=
  ⟨hl, by rw [hs], 0, by simp [hf], by simp [hs]⟩

theorem Moves.refl (s : State) : Moves s s := .of_same rfl rfl rfl

theorem Moves.trans {s t u : State} (h : Moves s t) (k : Moves t u) : Moves s u := by
  obtain ⟨gone, hf, hb⟩ := h.frames
  obtain ⟨gone', kf, kb⟩ := k.frames
  refine ⟨k.lineIn.trans h.lineIn, k.mem.trans h.mem, gone' + gone, ?_, ?_⟩
  · rw [← add_assoc, kf, hf]
  · rw [kb, hb, chainBlocks_add, add_assoc]

/-- Such an operation keeps every block in its one place. -/
theorem Moves.blocks {s t : State} (h : Moves s t) : t.blocks = s.blocks := by
  obtain ⟨gone, hf, hb⟩ := h.frames
  simp only [State.blocks, h.lineIn, hb, ← hf, chainBlocks_add]
  abel

/-- Every record it leaves stood there. -/
theorem Moves.frames_le {s t : State} (h : Moves s t) : t.frames ≤ s.frames :=
  h.frames.elim fun gone hg => Multiset.le_iff_exists_add.2 ⟨gone, hg.1.symm⟩

/-! ### The choice and the insertion -/

/-- The choice with no current frame moves records only (R15, R16). -/
theorem IdleChoice.frames_eq {e x : EgressScheduler} {st : FrameStore} {mask : BitVec 4} (h : IdleChoice e st mask x)
    (hc : e.current = none) : x.frames = e.frames := by
  cases h with
  | start l f rest hl hh hf =>
    simp only [EgressScheduler.frames, hc, ← lanesBag_pop hf, Option.toList, bag_cons, bag_nil, ← Multiset.singleton_add]
    abel
  | resume t rest ht hh =>
    simp only [EgressScheduler.frames, hc, ht, Option.toList, bag_cons, bag_nil, ← Multiset.singleton_add]
    abel
  | nothing => rfl

/-- Every choice moves records only (R12 to R16). -/
theorem AnyChoice.frames_eq {e : EgressScheduler} {st : FrameStore} {mask : BitVec 4} {c : Choice} (h : AnyChoice e st mask c) :
    c.egress.frames = e.frames := by
  cases h with
  | streamReset hr => simp only [EgressScheduler.frames]
  | abort l hr hl => simp only [EgressScheduler.frames]
  | idle x hr ha hc hx => exact hx.frames_eq hc
  | forced c x hr ha hc hh hx =>
    refine (hx.frames_eq rfl).trans ?_
    simp only [EgressScheduler.frames, EgressScheduler.push, hc, Option.toList, bag_cons, bag_nil, ← Multiset.singleton_add]
    abel
  | preempt c l f rest hr ha hc hp hl hh hf hg =>
    simp only [EgressScheduler.frames, hc, ← lanesBag_pop hf, Option.toList, bag_cons, bag_nil, ← Multiset.singleton_add]
    abel
  | goOn c hr ha hc hh => simp only [EgressScheduler.frames]

/-- A decision event moves records only. -/
theorem State.decisionEvent_frames (s : State) : s.decisionEvent.frames = s.frames := by
  have h : (s.egress.atDecision s.store s.lineOut).egress.frames = s.egress.frames := by
    unfold EgressScheduler.atDecision
    split
    · exact (EgressScheduler.choose_cases _ _ _).frames_eq
    · rfl
  simp [State.frames, h]

theorem State.decisionEvent_moves (s : State) : Moves s s.decisionEvent := .of_same rfl rfl s.decisionEvent_frames

/-- A lane insertion takes the released frames in, and leaves the store (R3). -/
theorem State.insertLanes_frames (s : State) (released : List ReleasedFrame) :
    (s.insertLanes released).frames = s.frames + laneBag released := by
  unfold State.insertLanes
  split
  · simp_all
  · rw [State.decisionEvent_frames]
    simp only [State.frames, EgressScheduler.frames, lanesBag_insert]
    abel

@[simp] theorem State.insertLanes_store (s : State) (released : List ReleasedFrame) : (s.insertLanes released).store = s.store := by
  rw [State.insertLanes_frame]

@[simp] theorem State.insertLanes_lineIn (s : State) (released : List ReleasedFrame) : (s.insertLanes released).lineIn = s.lineIn := by
  rw [State.insertLanes_frame]

/-- Chains returned: their blocks go to the free list, and nothing else changes (R77). -/
theorem State.returnChains_eq (s : State) (chains : List (List BlockNo)) :
    s.returnChains chains = { s with store := { s.store with free := chains.flatten.reverse ++ s.store.free } } := by
  rw [State.returnChains, foldl_returnChain]

@[simp] theorem State.returnChains_frames (s : State) (chains : List (List BlockNo)) : (s.returnChains chains).frames = s.frames := rfl

/-! ### Evaluations, admissions and flushes -/

/-- A pass parts its queue into what it leaves, releases and discards (R67). -/
theorem Descriptor.pass_frames (d : Descriptor) (tick : Word32) (draw : Nat) (flow : Flow) (queue : List QueuedFrame) (i : Nat)
    (c : PacingCounters) :
    queueBag queue = queueBag (d.pass tick draw flow queue i c).queue + laneBag (d.pass tick draw flow queue i c).released +
      queueBag (d.pass tick draw flow queue i c).stale := by
  obtain ⟨passed, hq, hs, hr, -⟩ := d.pass_passed tick draw flow queue i c
  have hrelease : laneBag ((passed.filter (fun f => !d.stale tick f)).map d.release) =
      queueBag (passed.filter (fun f => !d.stale tick f)) := by
    simp [bag, Function.comp_def, Descriptor.release]
  have hpassed : queueBag passed = _ := bag_filter _ (d.stale tick) passed
  rw [hs, hr, hrelease, add_assoc, add_comm (queueBag (List.filter _ _)), ← hpassed, add_comm]
  conv_lhs => rw [hq]
  exact bag_append _ _ _

/-- One evaluation after an admission (R67). -/
theorem State.evaluateFlow_moves (s : State) (f : Flow) : Moves s (s.evaluateFlow f) := by
  have hpass := (s.activeDescriptor f).pass_frames s.pacing.tickCounter s.draws f s.pacing.queues[f] 0
    ((s.activeDescriptor f).countersOf s.pacing.contexts[f])
  simp only [State.evaluateFlow, Descriptor.evaluate]
  generalize (s.activeDescriptor f).pass s.pacing.tickCounter s.draws f s.pacing.queues[f] 0 _ = r at hpass ⊢
  refine ⟨by rw [State.insertLanes_lineIn]; rfl, by rw [State.insertLanes_store, State.returnChains_eq], queueBag r.stale, ?_, ?_⟩
  · have hset := queuesBag_set s.pacing.queues f r.queue
    rw [hpass, add_assoc, add_comm, add_assoc] at hset
    rw [State.insertLanes_frames, State.returnChains_frames]
    simp only [State.frames, PacingUnit.frames]
    rw [add_comm (queuesBag s.pacing.queues)] at hset
    rw [← add_left_cancel hset]
    abel
  · rw [State.insertLanes_store, State.returnChains_eq, chainBlocks_bag, ← List.flatMap_def, coe_reverse_append]

/-- The sweep's evaluation of one flow parts its queue; an Absent flow's stays (R70). -/
theorem State.sweepFlow_frames (s : State) (contexts : Vector (Option PacingContext) 256) (f : Flow) :
    queueBag s.pacing.queues[f] =
      queueBag (((s.sweepFlow contexts f).map (fun r : Evaluation => r.queue)).getD s.pacing.queues[f]) +
      laneBag (((s.sweepFlow contexts f).map (fun r : Evaluation => r.released)).getD []) +
      queueBag (((s.sweepFlow contexts f).map (fun r : Evaluation => r.stale)).getD []) := by
  unfold State.sweepFlow
  dsimp only
  split
  · exact Descriptor.pass_frames _ _ _ _ _ _ _
  · simp

/-- The tick sweep (R70). -/
theorem State.sweep_moves (s : State) : Moves s s.sweep := by
  have hpart := queuesBag_part _ _ _ _ (s.sweepFlow_frames s.sweepContexts)
  simp only [State.sweep, Fin.getElem_fin, Vector.getElem_ofFn] at hpart ⊢
  generalize s.sweepFlow s.sweepContexts = results at hpart ⊢
  refine ⟨by rw [State.insertLanes_lineIn]; rfl, by rw [State.insertLanes_store, State.returnChains_eq],
    queueBag (allFlows.flatMap fun f => ((results f).map (fun r : Evaluation => r.stale)).getD []), ?_, ?_⟩
  · rw [State.insertLanes_frames, State.returnChains_frames]
    simp only [State.frames, PacingUnit.frames, hpart]
    abel
  · rw [State.insertLanes_store, State.returnChains_eq, chainBlocks_bag, ← List.flatMap_def, coe_reverse_append]

/-- A flush (R71, R72, R74). -/
theorem State.flushQueues_moves (s : State) (which : Flow → Bool) : Moves s (s.flushQueues which) := by
  have hpart := queuesBag_part s.pacing.queues (fun f => if which f then [] else s.pacing.queues[f]) (fun _ => [])
    (fun f => if which f then s.pacing.queues[f] else []) (fun f => by split <;> simp)
  have hfilter : (allFlows.filter which).flatMap (fun f : Flow => s.pacing.queues[f]) =
      allFlows.flatMap (fun f : Flow => if which f then s.pacing.queues[f] else []) := by
    generalize allFlows = flows
    induction flows with
    | nil => rfl
    | cons f rest ih =>
      rw [List.flatMap_cons, ← ih]
      cases h : which f <;> simp [h]
  have hnone : allFlows.flatMap (fun _ => ([] : List ReleasedFrame)) = [] := by simp
  rw [s.flushQueues_eq which _ hfilter.symm]
  refine ⟨rfl, rfl, queueBag (allFlows.flatMap (fun f : Flow => if which f then s.pacing.queues[f] else [])), ?_, ?_⟩
  · simp only [State.frames, PacingUnit.frames, hpart, hnone, bag_nil]
    abel
  · rw [chainBlocks_bag, coe_reverse_append]

theorem State.clearContexts_moves (s : State) (which : Flow → Bool) : Moves s (s.clearContexts which) :=
  .of_same (by simp) (by simp) (by simp [State.frames, PacingUnit.frames])

/-! ### Admission requests -/

/-- The records with one queue replaced. -/
theorem State.setQueue_frames (s : State) (f : Flow) (q : List QueuedFrame) :
    (s.setQueue f q).frames + queueBag s.pacing.queues[f] = s.frames + queueBag q := by
  have hset := queuesBag_set s.pacing.queues f q
  simp only [State.frames, PacingUnit.frames, State.setQueue]
  rw [add_right_comm, add_assoc _ _ (queueBag _), hset]
  abel

/-- An admission's step of the queue: the arriving frame joins the records, and a dropped one leaves them (R54 to R56). -/
theorem State.admitFrame_frames (s : State) (f : FrameRecord) :
    ∃ gone, (s.admitFrame f).frames + gone = s.frames + {f} ∧
      ((s.admitFrame f).store.free : Multiset BlockNo) = chainBlocks gone + s.store.free := by
  have hset := s.setQueue_frames f.flow
  unfold State.admitFrame
  dsimp only
  split
  · refine ⟨0, ?_, by simp⟩
    have h := hset (s.pacing.queues[f.flow] ++ [f.arrive s.pacing.tickCounter])
    simp only [bag_append] at h
    rw [← add_assoc, add_right_comm] at h
    exact (add_zero _).trans (add_right_cancel h)
  · split
    · refine ⟨{f}, rfl, ?_⟩
      simp [coe_reverse_append]
    · rename_i head rest _ hq
      refine ⟨{head.toFrameRecord}, ?_, by simp [coe_reverse_append]⟩
      have h := hset (rest ++ [f.arrive s.pacing.tickCounter])
      simp only [hq, bag_append, bag_cons, ← Multiset.singleton_add] at h
      rw [← add_assoc, ← add_assoc, add_right_comm s.frames] at h
      exact add_right_cancel h
    · rename_i hq
      refine ⟨0, ?_, by simp⟩
      have h := hset [f.arrive s.pacing.tickCounter]
      simp only [hq, bag_nil, add_zero] at h
      exact (add_zero _).trans h

theorem State.admitFrame_mem (s : State) (f : FrameRecord) : (s.admitFrame f).store.mem = s.store.mem := by
  unfold State.admitFrame
  dsimp only
  split
  · rfl
  · split <;> rfl

/-- An admission request taken (R53 to R57). -/
theorem State.takeRequest_moves (s : State) (f : FrameRecord) (rest : List FrameRecord) (h : s.pacing.requests = f :: rest) :
    Moves s ({ s with pacing := { s.pacing with requests := rest } }.takeRequest f) := by
  have hframes : State.frames { s with pacing := { s.pacing with requests := rest } } + {f} = s.frames := by
    simp only [State.frames, PacingUnit.frames, h, ← Multiset.cons_coe, ← Multiset.singleton_add]
    abel
  have hlineIn : State.lineIn { s with pacing := { s.pacing with requests := rest } } = s.lineIn := rfl
  have hstore : State.store { s with pacing := { s.pacing with requests := rest } } = s.store := rfl
  generalize ({ s with pacing := { s.pacing with requests := rest } } : State) = u at hframes hlineIn hstore ⊢
  unfold State.takeRequest
  split
  · refine Moves.trans ⟨?_, ?_, ?_⟩ (State.evaluateFlow_moves _ _)
    · rw [(u.admitFrame_only f).lineIn, hlineIn]
    · rw [u.admitFrame_mem f, hstore]
    · obtain ⟨gone, h1, h2⟩ := u.admitFrame_frames f
      exact ⟨gone, by rw [h1, hframes], by rw [h2, hstore]⟩
  · refine ⟨hlineIn, by simp [hstore], {f}, ?_, ?_⟩
    · rw [← hframes]; rfl
    · simp [hstore, coe_reverse_append]

/-! ### The slot, the stack and the lanes -/

/-- A segment's completion (R8, R9, R26). -/
theorem State.completeSegment_moves (s : State) (g : Segment) (c : SentFrame) (hc : s.egress.current = some c) :
    Moves s (s.completeSegment g c) := by
  have hgone : ∀ e : EgressScheduler, e.lanes = s.egress.lanes → e.current = none → e.stack = s.egress.stack →
      e.frames + {c.toFrameRecord} = s.egress.frames := by
    intro e h1 h2 h3
    simp only [EgressScheduler.frames, h1, h2, h3, hc, Option.toList, bag_cons, bag_nil, ← Multiset.singleton_add]
    abel
  unfold State.completeSegment
  split
  · refine ⟨rfl, rfl, {c.toFrameRecord}, ?_, by simp [coe_reverse_append]⟩
    exact (add_assoc _ _ _).trans (congrArg (s.pacing.frames + ·) (hgone s.egress.clearSlot rfl rfl rfl))
  · split
    · refine ⟨rfl, rfl, {c.toFrameRecord}, ?_, by simp [coe_reverse_append]⟩
      exact (add_assoc _ _ _).trans (congrArg (s.pacing.frames + ·) (hgone s.egress.clearSlot rfl rfl rfl))
    · refine .of_same rfl rfl ?_
      simp [State.frames, EgressScheduler.frames, hc]

theorem State.stallAbort_moves (s : State) (l : Level) (f : Flow) : Moves s (s.stallAbort l f) := by
  unfold State.stallAbort
  refine Moves.trans ?_ (State.decisionEvent_moves _)
  exact .of_same rfl rfl rfl

/-- A current frame that is partial is the current frame (R35). -/
theorem EgressScheduler.partialCurrent_some {e : EgressScheduler} {c : SentFrame} (h : e.partialCurrent = some c) :
    e.dropMark = false ∧ e.finalInFlight = false ∧ e.current = some c := by
  unfold EgressScheduler.partialCurrent at h
  split at h
  · cases h
  · simp_all

/-- A partial frame of the slot discarded (R25, R40). -/
theorem State.dropCurrent_moves (s : State) (e : EgressScheduler) (c : SentFrame) (hc : s.egress.current = some c)
    (hl : e.lanes = s.egress.lanes) (hs : e.stack = s.egress.stack) (hn : e.current = none) :
    Moves s ({ s with egress := e }.returnChain c.chain) := by
  refine ⟨rfl, rfl, {c.toFrameRecord}, ?_, by simp [coe_reverse_append]⟩
  simp only [State.frames, EgressScheduler.frames, State.returnChain, hc, hl, hs, hn, Option.toList, bag_cons, bag_nil,
    ← Multiset.singleton_add]
  abel

/-- A stall expiry (R39, R40). -/
theorem State.expireTimer_moves (s : State) (l : Level) : Moves s (s.expireTimer l) := by
  unfold State.expireTimer
  dsimp only
  split
  · refine Moves.trans ?_ (State.stallAbort_moves _ _ _)
    refine ⟨rfl, by rw [State.returnChains_eq], sentBag (s.egress.stack.filter (fun c : SentFrame => c.level == l)), ?_, ?_⟩
    · have h : sentBag s.egress.stack = _ := bag_filter _ (fun c : SentFrame => c.level == l) s.egress.stack
      simp only [State.frames, EgressScheduler.frames, State.returnChains_eq, bne, h]
      rw [add_assoc, add_assoc _ _ (sentBag _), add_comm (sentBag _) (sentBag _)]
    · rw [State.returnChains_eq, chainBlocks_bag, ← List.flatMap_def, coe_reverse_append]
  · split
    · rename_i c hc
      obtain ⟨-, -, hc⟩ := EgressScheduler.partialCurrent_some hc
      split
      · split
        · refine Moves.trans ?_ (State.stallAbort_moves _ _ _)
          exact .of_same rfl rfl rfl
        · refine Moves.trans ?_ (State.stallAbort_moves _ _ _)
          exact s.dropCurrent_moves _ c hc rfl rfl rfl
      · exact .of_same rfl rfl rfl
    · exact .of_same rfl rfl rfl

/-- Line-out going Down, at the scheduler (R45). -/
theorem State.egressDown_moves (s : State) : Moves s s.egressDown := by
  refine ⟨rfl, by simp only [State.egressDown, State.returnChains_eq], sentBag (s.egress.current.toList ++ s.egress.stack), ?_, ?_⟩
  · simp only [State.egressDown, State.returnChains_eq, State.frames, EgressScheduler.frames, EgressScheduler.clearSlot,
      Option.toList, bag_nil, bag_append]
    abel
  · simp only [State.egressDown, State.returnChains_eq, chainBlocks_bag, ← List.flatMap_def, coe_reverse_append]

/-- The lanes and the stack discarded at Restart Traffic (R24, R25). -/
theorem State.restartLanesAndStack_moves (s : State) : Moves s s.restartLanesAndStack := by
  have hlanes : laneBag s.egress.laneFrames = lanesBag s.egress.lanes := rfl
  refine ⟨rfl, by simp only [State.restartLanesAndStack, State.returnChains_eq],
    laneBag s.egress.laneFrames + sentBag s.egress.stack, ?_, ?_⟩
  · simp only [State.restartLanesAndStack, State.returnChains_eq, State.frames, EgressScheduler.frames, hlanes, bag_nil,
      lanesBag_replicate]
    abel
  · simp only [State.restartLanesAndStack, State.returnChains_eq, chainBlocks_add, chainBlocks_bag,
      List.flatten_append, ← List.flatMap_def, coe_reverse_append, Multiset.coe_add]

/-- The current frame at Restart Traffic (R25). -/
theorem State.restartCurrent_moves (s : State) : Moves s s.restartCurrent := by
  unfold State.restartCurrent
  split
  · exact .refl s
  · rename_i c hc
    obtain ⟨-, -, hc⟩ := EgressScheduler.partialCurrent_some hc
    dsimp only
    split
    · exact .of_same rfl rfl rfl
    · have h := s.dropCurrent_moves { s.egress with pendingAborts := setLevel s.egress.pendingAborts c.level, current := none } c hc
        rfl rfl rfl
      exact h.trans (.of_same rfl rfl rfl)

/-- Restart Traffic at the scheduler (R24, R25). -/
theorem State.restartEgress_moves (s : State) : Moves s s.restartEgress := by
  have h := s.restartLanesAndStack_moves.trans s.restartLanesAndStack.restartCurrent_moves
  unfold State.restartEgress
  dsimp only
  split
  · exact h
  · exact h.trans (State.decisionEvent_moves _)

end Sys2Proof.Machine
end

section
/-! The rows the agent answers at once, as one owning block each: what every owning block keeps, such a row keeps. With it, and with the
moves of the frames, two laws of every step: each block in one place (O5), and the store's canonical form with the Report Queue (O8). -/

namespace Sys2Proof.Machine

open Sys2Proof

/-- No change moves no frames. -/
theorem Moves.of_eq {s t : State} (h : t = s) : Moves s t := h ▸ .refl s

/-! ## The owning blocks -/

/-- The owning block of a row that is answered at once (R136 step 3). -/
def ownerRun : Instr → InboxEntry → State → Reply
  | .identify => runIdentify
  | .readSettings => runReadSettings
  | .writeSettings => runWriteSettings
  | .readStatus => runReadStatus
  | .readMapEntry => runReadMapEntry
  | .listMap => runListMap
  | .writeMapEntry => runWriteMapEntry
  | .removeMapEntry => runRemoveMapEntry
  | .readFlow => runReadFlow
  | .writeFlow => runWriteFlow
  | .modifyFlow => runModifyFlow
  | .copyPlan => fun e s => s.requestJob .copy e
  | .checkPlan => fun e s => s.requestJob .check e
  | .swapPlan => runSwapPlan
  | .abortJob => runAbortJob
  | .readPacing => runReadPacing
  | .flushFlow => runFlushFlow
  | .readCounters => runReadCounters
  | .readAndClearCounters => runReadAndClearCounters
  | _ => fun _ s => s.refuse .malformed

/-- Each of these rows begins a command for its owning block. -/
theorem exec_owner {c : Instr} (hc : c ∈ answeredRows) : ∃ mine lengths, ∀ s, exec c s = .next (s.beginCommand mine lengths (ownerRun c)) := by
  simp only [answeredRows, List.mem_cons, List.not_mem_nil, or_false] at hc
  rcases hc with rfl | rfl | rfl | rfl | rfl | rfl | rfl | rfl | rfl | rfl | rfl | rfl | rfl | rfl | rfl | rfl | rfl | rfl | rfl | rfl <;>
    exact ⟨_, _, fun _ => rfl⟩

/-- What the Inbox, the Outbox and the record do not bear on, and every owning block keeps, an answered row keeps. -/
theorem answeredRow_keeps {P : State → Prop} {c : Instr} (hc : c ∈ answeredRows)
    (hagent : ∀ u inbox outbox last, P u → P { u with agent := { u.agent with inbox := inbox, outbox := outbox, last := last } })
    (howner : ∀ e u, P u → P (ownerRun c e u).state) {s t : State} (h : exec c s = .next t) (hs : P s) : P t := by
  obtain ⟨mine, lengths, hx⟩ := exec_owner hc
  rw [hx, Host.Outcome.next.injEq] at h
  have hb := s.beginCommand_cases mine lengths (ownerRun c)
  rw [h] at hb
  have htake : P s.takeEntry := hagent s _ _ _ hs
  cases hb with
  | nothing => exact hs
  | repeated e r hm => exact hagent s _ _ _ hs
  | malformed e hm => exact hagent s _ _ _ hs
  | answered e st results hm hr => exact hagent (ownerRun c e s.takeEntry).state _ _ _ (howner e _ htake)
  | unanswered e hm hr => exact howner e _ htake

/-! ## The frames at the owning blocks -/

section Owners

variable (e : InboxEntry) (s : State)

/-- A command that changes a bank: refused, with nothing changed, or its own part. -/
theorem State.guarded_keeps {P : State → Prop} {ops : List Byte} {k : Bank → Reply} (hs : P s)
    (hk : ∀ b, b ≠ s.plan.active → s.plan.job = none → P (k b).state) : P (s.guarded ops k).state := by
  rcases s.guarded_cases ops k with ⟨st, h⟩ | ⟨b, -, hb, hj, h⟩ <;> rw [h]
  · exact hs
  · exact hk b hb hj

/-- A command that reads a bank or swaps: refused, with nothing changed, or its own part. -/
theorem State.withBank_keeps {P : State → Prop} {ops : List Byte} {k : Bank → Reply} (hs : P s) (hk : ∀ b, P (k b).state) :
    P (s.withBank ops k).state := by
  rcases s.withBank_cases ops k with ⟨st, h⟩ | ⟨b, -, h⟩ <;> rw [h]
  · exact hs
  · exact hk b

theorem runWriteSettings_moves : Moves s (runWriteSettings e s).state := by
  simp only [runWriteSettings, State.replaceSettings]
  repeat' split
  all_goals exact .of_same rfl rfl rfl

theorem State.writeDescriptor_moves (b : Bank) (f : Flow) (r : DescriptorRecord) : Moves s (s.writeDescriptor b f r).state := by
  unfold State.writeDescriptor
  split <;> exact .of_same rfl rfl rfl

theorem State.swap_moves (b : Bank) : Moves s (s.swap b) := by
  refine Moves.trans ?_ (State.clearContexts_moves _ _)
  refine Moves.trans ?_ (State.flushQueues_moves _ _)
  exact .of_same rfl rfl rfl

/-- The owning blocks move frames only by a flush: Flush Flow, and Swap Plan of the flows it makes Absent (R71, R72). -/
theorem ownerRun_moves (c : Instr) : Moves s (ownerRun c e s).state := by
  cases c with
  | writeSettings => exact runWriteSettings_moves e s
  | readMapEntry => exact .of_eq (runReadMapEntry_state e s)
  | listMap => exact .of_eq (runListMap_state e s)
  | readFlow => exact .of_eq (runReadFlow_state e s)
  | readCounters => exact .of_eq (runReadCounters_state e s)
  | readAndClearCounters =>
    simp only [ownerRun, runReadAndClearCounters]
    split <;> exact .of_same rfl rfl rfl
  | writeMapEntry =>
    refine s.guarded_keeps (.refl s) fun b _ _ => ?_
    dsimp only
    split <;> exact .of_same rfl rfl rfl
  | removeMapEntry =>
    refine s.guarded_keeps (.refl s) fun b _ _ => ?_
    dsimp only
    split <;> exact .of_same rfl rfl rfl
  | writeFlow => exact s.guarded_keeps (.refl s) fun b _ _ => s.writeDescriptor_moves b _ _
  | modifyFlow =>
    refine s.guarded_keeps (.refl s) fun b _ _ => ?_
    dsimp only
    split
    · exact .refl s
    · exact s.writeDescriptor_moves b _ _
  | copyPlan =>
    refine s.guarded_keeps (.refl s) fun b _ _ => ?_
    split <;> exact .of_same rfl rfl rfl
  | checkPlan =>
    refine s.guarded_keeps (.refl s) fun b _ _ => ?_
    split <;> exact .of_same rfl rfl rfl
  | swapPlan =>
    refine s.withBank_keeps (.refl s) fun b => ?_
    repeat' split
    all_goals first | exact .refl s | exact s.swap_moves b
  | abortJob =>
    simp only [ownerRun, runAbortJob]
    split <;> exact .of_same rfl rfl rfl
  | flushFlow => exact s.flushQueues_moves _
  | _ => exact .of_same rfl rfl rfl

end Owners

/-- A row answered at once moves frames only. -/
theorem answeredRow_moves {c : Instr} (hc : c ∈ answeredRows) {s t : State} (h : exec c s = .next t) : Moves s t :=
  answeredRow_keeps (P := Moves s) hc (fun _ _ _ _ hu => hu.trans (.of_same rfl rfl rfl))
    (fun e u hu => hu.trans (ownerRun_moves e u c)) h (.refl s)

end Sys2Proof.Machine
end

section
/-! Every row outside reception moves frames only; what the rows of reception do with the blocks. With both, each block stays in one
place (O5), and the store's canonical form with the Report Queue's law (O8). -/

namespace Sys2Proof.Machine

open Sys2Proof

/-! ## The rows outside reception -/

/-- The rows of the Line-In Receiver, and the reset. -/
inductive ReceptionRow : Instr → Prop
  | reset (straps : BitVec 4) : ReceptionRow (.powerUpReset straps)
  | startDelimiter : ReceptionRow .lineInStartDelimiter
  | byte (b : Byte) : ReceptionRow (.lineInByte b)
  | endDelimiter : ReceptionRow .lineInEndDelimiter
  | errorSymbol : ReceptionRow .lineInErrorSymbol
  | comesUp : ReceptionRow .lineInComesUp
  | goesDown : ReceptionRow .lineInGoesDown
  | restart : ReceptionRow .restartAtLineInReceiver

/-- The scheduler's timers and the counters bear on no frame. -/
theorem Moves.of_frames {s t u : State} (h : Moves s t) (hl : u.lineIn = t.lineIn) (hs : u.store = t.store)
    (hp : u.pacing.frames = t.pacing.frames) (he : u.egress.frames = t.egress.frames) : Moves s u :=
  h.trans (.of_same hl hs (by simp only [State.frames, hp, he]))

section Rows

variable (s : State)

theorem State.holdChange_moves (mask : BitVec 4) : Moves s (s.holdChange mask) := by
  unfold State.holdChange
  split
  · exact .refl s
  · refine Moves.trans ?_ (State.decisionEvent_moves _)
    exact .of_same rfl rfl rfl

theorem State.changeContext_moves (f : Flow) (change : Descriptor → PacingCounters → PacingCounters) :
    Moves s (s.changeContext f change) := by
  unfold State.changeContext
  dsimp only
  repeat' split
  all_goals exact .of_same rfl rfl rfl

theorem State.mergeChoice_moves : Moves s s.mergeChoice := by
  unfold State.mergeChoice State.serveAgent
  repeat' split
  all_goals exact .of_same rfl rfl rfl

theorem State.copyItem_moves (j : Job) : Moves s (s.copyItem j) := by
  unfold State.copyItem
  dsimp only
  repeat' split
  all_goals exact .of_same rfl rfl rfl

theorem State.checkItem_moves (j : Job) : Moves s (s.checkItem j) := by
  unfold State.checkItem
  dsimp only
  repeat' split
  all_goals exact .of_same rfl rfl rfl

theorem State.loseReturn_moves : Moves s s.loseReturn := by
  unfold State.loseReturn
  split <;> exact .of_same rfl rfl rfl

end Rows

/-- Every row but the reset and those of reception moves frames only. -/
theorem exec_moves {c : Instr} {s t : State} (h : exec c s = .next t) : Moves s t ∨ ReceptionRow c := by
  induction c using Instr.byRows with
  | answered c hc => exact .inl (answeredRow_moves hc h)
  | powerUpReset straps => exact .inr (.reset straps)
  | lineInStartDelimiter => exact .inr .startDelimiter
  | lineInByte b => exact .inr (.byte b)
  | lineInEndDelimiter => exact .inr .endDelimiter
  | lineInErrorSymbol => exact .inr .errorSymbol
  | lineInComesUp => exact .inr .comesUp
  | lineInGoesDown => exact .inr .goesDown
  | restartAtLineIn => exact .inr .restart
  | holdSymbol arg =>
    simp only [exec, execHoldSymbol, Host.Outcome.next.injEq] at h
    subst h
    left
    repeat' split
    · exact s.holdChange_moves _
    · exact .refl s
    · exact .refl s
  | receivedSymbol symbol arg =>
    simp only [exec, execReceivedAbortOrStreamReset, Host.Outcome.next.injEq] at h
    exact .inl (.of_eq h.symm)
  | returnStartDelimiter =>
    rw [frame_returns s t .returnStartDelimiter (by simp) h]
    exact .inl (.of_same rfl rfl rfl)
  | returnByte b =>
    rw [frame_returns s t (.returnByte b) (by simp) h]
    exact .inl (.of_same rfl rfl rfl)
  | returnEndDelimiter =>
    rw [frame_returns s t .returnEndDelimiter (by simp) h]
    exact .inl (.of_same rfl rfl rfl)
  | returnErrorSymbol =>
    rw [frame_returns s t .returnErrorSymbol (by simp) h]
    exact .inl (.of_same rfl rfl rfl)
  | lineOutComesUp =>
    simp only [exec, execLineOutComesUp, Host.Outcome.next.injEq] at h
    subst h
    left
    split
    · exact .refl s
    · refine Moves.trans ?_ (State.decisionEvent_moves _)
      exact .of_same rfl rfl rfl
  | lineOutGoesDown =>
    simp only [exec, execLineOutGoesDown, Host.Outcome.next.injEq] at h
    subst h
    left
    split
    · refine Moves.trans ?_ (State.egressDown_moves _)
      exact s.loseReturn_moves.of_frames rfl rfl rfl rfl
    · exact .refl s
  | segmentCompletion =>
    simp only [exec, execSegmentCompletion, Host.Outcome.next.injEq] at h
    subst h
    left
    split
    · exact (s.completeSegment_moves _ _ ‹_›).trans (State.decisionEvent_moves _)
    · exact .refl s
  | controlSymbolCompletion =>
    simp only [exec, execControlSymbolCompletion, Host.Outcome.next.injEq] at h
    subst h
    left
    split
    · refine Moves.trans ?_ (State.decisionEvent_moves _)
      exact .of_same rfl rfl rfl
    · refine Moves.trans ?_ (State.decisionEvent_moves _)
      exact .of_same rfl rfl rfl
    · exact .refl s
  | tickExpiry =>
    simp only [exec, execTickExpiry, Host.Outcome.next.injEq] at h
    subst h
    have hcount : Moves s s.countTick := .of_same rfl rfl rfl
    have hsweep := hcount.trans s.countTick.sweep_moves
    generalize s.countTick.sweep = u at hsweep ⊢
    exact .inl (hsweep.of_frames rfl rfl rfl rfl)
  | stallTimerExpiry l =>
    simp only [exec, execStallTimerExpiry, Host.Outcome.next.injEq] at h
    subst h
    left
    split
    · exact s.expireTimer_moves l
    · exact .refl s
  | contextChange c f hc =>
    left
    rcases hc with rfl | rfl | rfl <;>
      (simp only [exec, execGatePhaseChange, execWindowBoundary, execEpochBoundary, Host.Outcome.next.injEq] at h; subst h
       exact s.changeContext_moves f _)
  | admissionRequest =>
    simp only [exec, execAdmissionRequest, Host.Outcome.next.injEq] at h
    subst h
    left
    split
    · exact .refl s
    · exact s.takeRequest_moves _ _ ‹_›
  | returnMergeChoice =>
    simp only [exec, execReturnMergeChoice, Host.Outcome.next.injEq] at h
    subst h
    left
    split
    · exact s.mergeChoice_moves
    · exact .refl s
  | transmissionCompletion =>
    rw [frame_transmissionCompletion s t h]
    exact .inl (.of_same rfl rfl rfl)
  | jobItemCompletion =>
    simp only [exec, execJobItemCompletion, Host.Outcome.next.injEq] at h
    subst h
    left
    repeat' split
    · exact s.copyItem_moves _
    · exact s.checkItem_moves _
    · exact .refl s
  | restartTraffic =>
    rw [frame_restartTraffic s t h]
    exact .inl (.of_same rfl rfl rfl)
  | restartAtPacing =>
    simp only [exec, execRestartAtPacingUnit, Host.Outcome.next.injEq] at h
    subst h
    left
    split
    · refine Moves.trans ?_ (State.clearContexts_moves _ _)
      refine Moves.trans ?_ (State.flushQueues_moves _ _)
      exact .of_same rfl rfl rfl
    · exact .refl s
  | restartAtEgress =>
    simp only [exec, execRestartAtEgressScheduler, Host.Outcome.next.injEq] at h
    subst h
    left
    split
    · refine Moves.trans ?_ (State.restartEgress_moves _)
      exact .of_same rfl rfl rfl
    · exact .refl s
  | restartCompletion =>
    rw [frame_restartCompletion s t h]
    exact .inl (.of_same rfl rfl rfl)

end Sys2Proof.Machine
end

section
/-! The blocks at the rows of reception, and so each block in one place at every step (O5). -/

namespace Sys2Proof.Machine

open Sys2Proof

section Reception

variable (s : State)

/-- What leaves the partial chain, the free list and the records leaves every block where it is. -/
theorem State.blocks_of_same {s t : State} (hc : t.lineIn.chain = s.lineIn.chain) (hf : t.store.free = s.store.free)
    (hr : t.frames = s.frames) : t.blocks = s.blocks := by
  simp only [State.blocks, hc, hf, hr]

/-- The partial chain goes to the free list (R85). -/
theorem State.dropRecord_blocks : s.dropRecord.blocks = s.blocks := by
  have hr : s.dropRecord.frames = s.frames := rfl
  have hc : s.dropRecord.lineIn.chain = [] := rfl
  have hf : s.dropRecord.store.free = s.lineIn.chain.reverse ++ s.store.free := rfl
  rw [State.blocks, State.blocks, hr, hc, hf, coe_reverse_append, Multiset.coe_nil]
  abel

theorem State.leaveFrame_blocks (next : LineInState) : (s.leaveFrame next).blocks = s.blocks :=
  s.dropRecord_blocks

/-- The partial chain becomes the chain of the request (R99). -/
theorem State.handOver_blocks : s.handOver.blocks = s.blocks := by
  unfold State.handOver
  split
  · rename_i r hr
    have hc : s.lineIn.chain = r.chain := by simp only [LineInReceiver.chain, hr]
    have hnone : LineInReceiver.chain { s.lineIn with record := none } = [] := rfl
    simp only [State.blocks, hc, hnone, State.frames, PacingUnit.frames, ← Multiset.coe_add, Multiset.coe_singleton, chainBlocks_add,
      chainBlocks_singleton, Multiset.coe_nil]
    abel
  · rfl

theorem State.applyVerdict_blocks (v : Verdict) : (s.applyVerdict v).blocks = s.blocks := by
  cases v with
  | forward => exact s.handOver_blocks
  | _ => exact State.blocks_of_same rfl rfl rfl

theorem State.endFrame_blocks : s.endFrame.blocks = s.blocks :=
  (State.leaveFrame_blocks _ .idle).trans (State.applyVerdict_blocks _ _)

/-- A frame begun where none is in reception (R92). -/
theorem State.beginFrame_blocks (h : s.lineIn.chain = []) : s.beginFrame.blocks = s.blocks :=
  State.blocks_of_same h.symm rfl rfl

theorem State.endBadFrame_blocks : ((s.setLineIn { s.lineIn with bad := true }).endFrame).beginFrame.blocks = s.blocks :=
  (State.beginFrame_blocks _ rfl).trans (State.endFrame_blocks _)

theorem State.classify_blocks : s.classify.blocks = s.blocks := by
  simp only [State.classify, State.classifyManagement, State.classifyForward, State.classifyUnmapped]
  repeat' split
  all_goals exact State.blocks_of_same rfl rfl rfl

/-- A granted block goes from the free list to the partial chain; a refused request returns the chain (R79, R82). -/
theorem State.requestBlock_blocks (f : Flow) (cls : ReserveClass) (bytes : List Byte) :
    (s.requestBlock f cls bytes).blocks = s.blocks := by
  rcases s.store.allocate_cases cls s.settings.reserveFloor.toNat with ⟨b, rest, hfree, -, ha⟩ | ⟨-, ha⟩
  · have hchain (x : ReceptionRecord) : LineInReceiver.chain { s.lineIn with record := some x } = x.chain := rfl
    simp only [State.requestBlock, ha, State.blocks, hchain, FrameStore.write_free, hfree, State.frames, ← Multiset.cons_coe,
      ← Multiset.coe_add, ← Multiset.singleton_add, Multiset.coe_nil]
    abel
  · simp only [State.requestBlock, ha]
    exact s.dropRecord_blocks

theorem State.overrun_blocks : s.overrun.blocks = s.blocks := s.dropRecord_blocks

theorem State.presentForward_blocks (f : Flow) (cls : ReserveClass) (k : Nat) (b : Byte) :
    (s.presentForward f cls k b).blocks = s.blocks := by
  unfold State.presentForward
  repeat' split
  · rfl
  · exact s.requestBlock_blocks f cls _
  · exact s.overrun_blocks
  · exact s.requestBlock_blocks f cls _
  · exact State.blocks_of_same rfl rfl rfl
  · rfl

theorem State.presentManagement_blocks (k : Nat) (b : Byte) : (s.presentManagement k b).blocks = s.blocks := by
  unfold State.presentManagement
  split
  · exact s.overrun_blocks
  · exact State.blocks_of_same rfl rfl rfl

theorem State.presentByte_blocks (k : Nat) (b : Byte) : (s.presentByte k b).blocks = s.blocks := by
  unfold State.presentByte
  repeat' split
  · exact s.presentManagement_blocks k b
  · exact s.presentForward_blocks _ _ k b
  · rfl
  · rfl

theorem State.loseFrame_blocks : s.loseFrame.blocks = s.blocks := by
  rw [State.loseFrame_frame]
  exact s.dropRecord_blocks

theorem State.restartLineIn_blocks : s.restartLineIn.blocks = s.blocks := by
  unfold State.restartLineIn
  repeat' split
  · rfl
  · exact State.blocks_of_same rfl rfl rfl
  · exact State.blocks_of_same rfl rfl rfl
  · exact s.dropRecord_blocks
  · rfl

end Reception

/-- With no frame in Keep there is no partial chain (R78). -/
theorem State.ReceptionLaw.chain_nil {s : State} (h : s.ReceptionLaw) (hk : s.lineIn.state ≠ .keep) : s.lineIn.chain = [] := by
  unfold LineInReceiver.chain
  split
  · exact absurd (h.record _ ‹_›).1 hk
  · rfl

/-- No queue, lane, slot or stack holds a record after the reset. -/
theorem State.powerUp_frames (straps : BitVec 4) : (State.powerUp straps).frames = 0 := by
  have hqueues : allFlows.flatMap (fun _ => ([] : List QueuedFrame)) = [] := List.flatMap_eq_nil_iff.2 fun _ _ => rfl
  simp [hqueues, State.frames, PacingUnit.frames, EgressScheduler.frames, State.powerUp, PacingUnit.powerUp, EgressScheduler.powerUp,
    queuesBag]

/-- After the reset every block is free (R89). -/
theorem State.powerUp_blocksOnce (straps : BitVec 4) : (State.powerUp straps).BlocksOnce := by
  rw [State.blocksOnce_iff]
  intro b
  rw [State.blocks, State.powerUp_frames]
  simp [State.powerUp, FrameStore.powerUp, LineInReceiver.chain, LineInReceiver.empty, Multiset.coe_count,
    List.count_eq_one_of_mem (List.nodup_finRange 1024) (List.mem_finRange b)]

/-- Every row of reception leaves every block in one place. -/
theorem ReceptionRow.keeps_blocksOnce {c : Instr} (hc : ReceptionRow c) {s t : State} (hl : s.ReceptionLaw) (hs : s.BlocksOnce)
    (h : exec c s = .next t) : t.BlocksOnce := by
  cases hc with
  | reset straps =>
    rw [exec_powerUpReset s t h]
    exact State.BlocksOnce.of_blocks (State.powerUp_blocksOnce straps) rfl
  | startDelimiter =>
    simp only [exec, execLineInStartDelimiter, Host.Outcome.next.injEq] at h
    subst h
    refine hs.of_blocks ?_
    split
    · rfl
    · exact s.beginFrame_blocks (hl.chain_nil (by simp_all))
    all_goals exact s.endBadFrame_blocks
  | byte b =>
    simp only [exec, execLineInByte, Host.Outcome.next.injEq] at h
    subst h
    refine hs.of_blocks ?_
    have htake : (s.setLineIn (s.lineIn.take b)).blocks = s.blocks := State.blocks_of_same (s.lineIn.take_chain b) rfl rfl
    repeat' split
    · rfl
    · rfl
    · exact (State.classify_blocks _).trans htake
    · exact htake
    · exact (State.presentByte_blocks _ _ _).trans htake
    · exact htake
    · exact htake
  | endDelimiter =>
    simp only [exec, execLineInEndDelimiter, Host.Outcome.next.injEq] at h
    subst h
    refine hs.of_blocks ?_
    split
    · exact s.endFrame_blocks
    · rfl
  | errorSymbol =>
    simp only [exec, execLineInErrorSymbol, Host.Outcome.next.injEq] at h
    subst h
    refine hs.of_blocks ?_
    split <;> rfl
  | comesUp =>
    simp only [exec, execLineInComesUp, Host.Outcome.next.injEq] at h
    subst h
    refine hs.of_blocks ?_
    split
    · rfl
    · rename_i hup
      have hdown : s.lineIn.state = .down := by simpa [LineInReceiver.up] using hup
      exact State.blocks_of_same (hl.chain_nil (by simp [hdown])).symm rfl rfl
  | goesDown =>
    simp only [exec, execLineInGoesDown, Host.Outcome.next.injEq] at h
    subst h
    refine hs.of_blocks ?_
    split
    · rw [State.mergeDown_frame]
      exact s.loseFrame_blocks
    · rfl
  | restart =>
    simp only [exec, execRestartAtLineInReceiver, Host.Outcome.next.injEq] at h
    subst h
    refine hs.of_blocks ?_
    split
    · exact State.restartLineIn_blocks _
    · rfl

/-- One command keeps each block in one place. -/
theorem exec_blocksOnce {c : Instr} {s t : State} (h : exec c s = .next t) (hl : s.ReceptionLaw) (hs : s.BlocksOnce) :
    t.BlocksOnce := by
  rcases exec_moves h with hm | hc
  · exact hs.of_blocks hm.blocks
  · exact hc.keeps_blocksOnce hl hs h

/-- Settles O5: outside reception a row moves records or returns their chains; in reception a block goes between the free list, the
partial chain and a request. -/
theorem stepKeepsBlocksOnce : Obligations.StepKeepsBlocksOnce := by
  intro s t hl hs h
  unfold step at h
  split at h
  · rw [← Host.Outcome.next.inj h]
    exact hs
  · rename_i c rest hp
    exact exec_blocksOnce h ⟨hl.1, hl.2, hl.3, hl.4, hl.5, hl.6, hl.7, hl.8, hl.9, hl.10, hl.11, hl.12, hl.13, hl.14⟩
      (hs.of_blocks rfl)

end Sys2Proof.Machine
end

section
/-! The Report Queue and the store's bytes at every row: what postings other than JobDone and a report sent keep of the queue, every row
keeps that works no job; and the memory law with the Report Queue's law at every step (O8). -/

namespace Sys2Proof.Machine

open Sys2Proof

/-! ## The Report Queue -/

/-- A property of the Report Queue that postings of other kinds than JobDone keep, and so does a report sent. -/
structure ReportsKept (P : List ReportRecord → Prop) : Prop where
  empty : P []
  posted : ∀ q d tick, d.kind ≠ .jobDone → P q → P (postInto q d tick)
  sent : ∀ q, P q → P q.tail

section Reports

variable {P : List ReportRecord → Prop} (hP : ReportsKept P) (s : State)

include hP

theorem ReportsKept.post {s : State} (hs : P s.reports) {d : Detail} (hd : d.kind ≠ .jobDone) : P (s.post d).reports := by
  rw [State.post_reports]
  split
  · exact hP.posted _ _ _ hd hs
  · exact hs

theorem ReportsKept.applyVerdict {s : State} (hs : P s.reports) (v : Verdict) : P (s.applyVerdict v).reports := by
  cases v with
  | truncated f => exact hP.post (s := (s.countFlow f .storeDiscards).count .storeExhausted) hs (by simp [Detail.kind])
  | checkError label => exact hP.post (s := s.freePlace.count .checkErrors) hs (by simp [Detail.kind])
  | unmapped label => exact hP.post (s := s.count .unmappedDiscards) hs (by simp [Detail.kind])
  | forward =>
    simp only [State.applyVerdict, State.handOver]
    split <;> exact hs
  | _ => exact hs

theorem ReportsKept.endFrame {s : State} (hs : P s.reports) : P s.endFrame.reports :=
  hP.applyVerdict (s := s.count .lineInFrames) hs _

theorem ReportsKept.classify {s : State} (hs : P s.reports) : P s.classify.reports := by
  simp only [State.classify, State.classifyManagement, State.classifyForward, State.classifyUnmapped]
  repeat' split
  · exact hs
  · exact hP.post hs (by simp [Detail.kind])
  all_goals exact hs

theorem ReportsKept.countTruncated {s : State} (hs : P s.reports) (f : Flow) : P (s.countTruncated f).reports :=
  hP.post (s := (s.countFlow f .storeDiscards).count .storeExhausted) hs (by simp [Detail.kind])

theorem ReportsKept.stallAbort {s : State} (hs : P s.reports) (l : Level) (f : Flow) : P (s.stallAbort l f).reports :=
  hP.post (s := State.count _ .stallAborts) hs (by simp [Detail.kind])

theorem ReportsKept.mergeChoice {s : State} (hs : P s.reports) : P s.mergeChoice.reports := by
  have hagent : P s.serveAgent.reports := by
    unfold State.serveAgent
    repeat' split
    · exact hs
    · rename_i r rest hr
      rw [hr] at hs
      exact hP.sent _ hs
    · exact hs
  unfold State.mergeChoice
  repeat' split
  · exact hagent
  · exact hs
  · exact hagent

/-- The rows of the Line-In Receiver. -/
theorem ReceptionRow.reports {c : Instr} (hc : ReceptionRow c) {s t : State} (h : exec c s = .next t) (hs : P s.reports) :
    P t.reports := by
  cases hc with
  | reset straps =>
    rw [exec_powerUpReset s t h]
    exact hP.empty
  | startDelimiter =>
    simp only [exec, execLineInStartDelimiter, Host.Outcome.next.injEq] at h
    subst h
    split
    · exact hs
    · exact hs
    all_goals exact hP.endFrame (s := s.setLineIn _) hs
  | byte b =>
    have hpresent (u : State) (k : Nat) (o : Byte) : (u.presentByte k o).reports = u.reports := by
      simp only [State.presentByte, State.presentForward, State.requestBlock, State.presentManagement, State.overrun]
      repeat' split
      all_goals rfl
    simp only [exec, execLineInByte, Host.Outcome.next.injEq] at h
    subst h
    repeat' split
    · exact hs
    · exact hs
    · exact hP.classify (s := s.setLineIn _) hs
    · exact hs
    · rw [hpresent]
      exact hs
    · exact hs
    · exact hs
  | endDelimiter =>
    simp only [exec, execLineInEndDelimiter, Host.Outcome.next.injEq] at h
    subst h
    split
    · exact hP.endFrame hs
    · exact hs
  | errorSymbol =>
    simp only [exec, execLineInErrorSymbol, Host.Outcome.next.injEq] at h
    subst h
    split <;> exact hs
  | comesUp =>
    simp only [exec, execLineInComesUp, Host.Outcome.next.injEq] at h
    subst h
    split
    · exact hs
    · exact hP.post (s := s.setLineIn _) hs (by simp [Detail.kind])
  | goesDown =>
    simp only [exec, execLineInGoesDown, Host.Outcome.next.injEq] at h
    subst h
    split
    · rw [State.mergeDown_frame]
      simp only [State.loseFrame, State.leaveFrame_eq]
      split
      · exact hP.countTruncated hs _
      · exact hs
    · exact hs
  | restart =>
    simp only [exec, execRestartAtLineInReceiver, Host.Outcome.next.injEq] at h
    subst h
    split
    · unfold State.restartLineIn
      repeat' split
      · exact hs
      · exact hP.countTruncated (s := { s with agent := _ }) hs _
      all_goals exact hs
    · exact hs

/-- Every row that neither works a job nor answers a command. -/
theorem exec_reports {c : Instr} (hanswered : c ∉ answeredRows) (hjob : c ≠ .jobItemCompletion) {s t : State}
    (h : exec c s = .next t) (hs : P s.reports) : P t.reports := by
  induction c using Instr.byRows with
  | answered c hc => exact absurd hc hanswered
  | powerUpReset straps => exact (ReceptionRow.reset straps).reports hP h hs
  | lineInStartDelimiter => exact ReceptionRow.startDelimiter.reports hP h hs
  | lineInByte b => exact (ReceptionRow.byte b).reports hP h hs
  | lineInEndDelimiter => exact ReceptionRow.endDelimiter.reports hP h hs
  | lineInErrorSymbol => exact ReceptionRow.errorSymbol.reports hP h hs
  | lineInComesUp => exact ReceptionRow.comesUp.reports hP h hs
  | lineInGoesDown => exact ReceptionRow.goesDown.reports hP h hs
  | restartAtLineIn => exact ReceptionRow.restart.reports hP h hs
  | holdSymbol arg => exact (congrArg State.reports (frame_holdSymbol s t arg h)) ▸ hs
  | receivedSymbol symbol arg =>
    simp only [exec, execReceivedAbortOrStreamReset, Host.Outcome.next.injEq] at h
    exact h ▸ hs
  | returnStartDelimiter => exact (congrArg State.reports (frame_returns s t _ (by simp) h)) ▸ hs
  | returnByte b => exact (congrArg State.reports (frame_returns s t (.returnByte b) (by simp) h)) ▸ hs
  | returnEndDelimiter => exact (congrArg State.reports (frame_returns s t _ (by simp) h)) ▸ hs
  | returnErrorSymbol => exact (congrArg State.reports (frame_returns s t _ (by simp) h)) ▸ hs
  | lineOutComesUp => exact (congrArg State.reports (frame_lineOutComesUp s t h)) ▸ hs
  | lineOutGoesDown =>
    have hlost : s.loseReturn.reports = s.reports := by
      unfold State.loseReturn
      split <;> rfl
    simp only [exec, execLineOutGoesDown, Host.Outcome.next.injEq] at h
    subst h
    split
    · exact hP.post (s := s.loseReturn) (hlost ▸ hs) (by simp [Detail.kind])
    · exact hs
  | segmentCompletion => exact (congrArg State.reports (frame_segmentCompletion s t h)) ▸ hs
  | controlSymbolCompletion => exact (congrArg State.reports (frame_controlSymbolCompletion s t h)) ▸ hs
  | tickExpiry => exact (congrArg State.reports (frame_tickExpiry s t h)) ▸ hs
  | stallTimerExpiry l =>
    simp only [exec, execStallTimerExpiry, Host.Outcome.next.injEq] at h
    subst h
    split
    · unfold State.expireTimer
      dsimp only
      repeat' split
      · refine hP.stallAbort ?_ l _
        exact hs
      · refine hP.stallAbort ?_ l _
        exact hs
      · refine hP.stallAbort ?_ l _
        exact hs
      all_goals exact hs
    · exact hs
  | contextChange c f hc => exact (congrArg State.reports (frame_contextChange s t c f hc h)) ▸ hs
  | admissionRequest => exact (congrArg State.reports (frame_admissionRequest s t h)) ▸ hs
  | returnMergeChoice =>
    simp only [exec, execReturnMergeChoice, Host.Outcome.next.injEq] at h
    subst h
    split
    · exact hP.mergeChoice hs
    · exact hs
  | transmissionCompletion => exact (congrArg State.reports (frame_transmissionCompletion s t h)) ▸ hs
  | jobItemCompletion => exact absurd rfl hjob
  | restartTraffic => exact (congrArg State.reports (frame_restartTraffic s t h)) ▸ hs
  | restartAtPacing => exact (congrArg State.reports (frame_restartAtPacingUnit s t h).1) ▸ hs
  | restartAtEgress => exact (congrArg State.reports (frame_restartAtEgress s t h).1) ▸ hs
  | restartCompletion => exact (congrArg State.reports (frame_restartCompletion s t h)) ▸ hs

end Reports

/-- The owning blocks post no report but that of an aborted job (R126). -/
theorem ownerRun_reports {c : Instr} (hc : c ≠ .abortJob) (e : InboxEntry) (s : State) : (ownerRun c e s).state.reports = s.reports := by
  cases c with
  | abortJob => exact absurd rfl hc
  | writeSettings =>
    simp only [ownerRun, runWriteSettings, State.replaceSettings]
    repeat' split
    all_goals rfl
  | readMapEntry => exact congrArg State.reports (runReadMapEntry_state e s)
  | listMap => exact congrArg State.reports (runListMap_state e s)
  | readFlow => exact congrArg State.reports (runReadFlow_state e s)
  | readCounters => exact congrArg State.reports (runReadCounters_state e s)
  | readAndClearCounters =>
    simp only [ownerRun, runReadAndClearCounters]
    split <;> rfl
  | writeMapEntry =>
    refine s.guarded_keeps (P := fun u => u.reports = s.reports) rfl fun b _ _ => ?_
    dsimp only
    split <;> rfl
  | removeMapEntry =>
    refine s.guarded_keeps (P := fun u => u.reports = s.reports) rfl fun b _ _ => ?_
    dsimp only
    split <;> rfl
  | writeFlow =>
    refine s.guarded_keeps (P := fun u => u.reports = s.reports) rfl fun b _ _ => ?_
    simp only [State.writeDescriptor]
    split <;> rfl
  | modifyFlow =>
    refine s.guarded_keeps (P := fun u => u.reports = s.reports) rfl fun b _ _ => ?_
    simp only [State.writeDescriptor]
    repeat' split
    all_goals rfl
  | copyPlan =>
    refine s.guarded_keeps (P := fun u => u.reports = s.reports) rfl fun b _ _ => ?_
    split <;> rfl
  | checkPlan =>
    refine s.guarded_keeps (P := fun u => u.reports = s.reports) rfl fun b _ _ => ?_
    split <;> rfl
  | swapPlan =>
    refine s.withBank_keeps (P := fun u => u.reports = s.reports) rfl fun b => ?_
    repeat' split
    all_goals rfl
  | _ => rfl

/-! ## The law of the Report Queue (R169) -/

theorem State.ReportLaw.of_reports {s t : State} (h : s.ReportLaw) (e : t.reports = s.reports) : t.ReportLaw :=
  ⟨e ▸ h.kinds, e ▸ h.occurrences⟩

/-- Any posting keeps the law. -/
theorem State.ReportLaw.post {s : State} (h : s.ReportLaw) (d : Detail) : (s.post d).ReportLaw := by
  rcases hd : s.agent.settings.enables d.kind with _ | _
  · exact h.of_reports (by simp [hd])
  · obtain ⟨hkinds, hocc⟩ := postInto_law s.reports d s.pacing.tickCounter h.kinds h.occurrences
    exact ⟨by simpa [hd] using hkinds, by simpa [hd] using hocc⟩

/-- The law as a property of the queue alone. -/
def ReportQueueLaw (q : List ReportRecord) : Prop :=
  (q.map ReportRecord.kind).Nodup ∧ ∀ r ∈ q, 1 ≤ r.occurrences ∧ r.occurrences ≤ 65535

theorem reportQueueLaw_kept : ReportsKept ReportQueueLaw where
  empty := ⟨List.nodup_nil, by simp⟩
  posted q d tick _ h := postInto_law q d tick h.1 h.2
  sent q h := ⟨by rw [List.map_tail]; exact h.1.sublist (List.tail_sublist _), fun r hr => h.2 r (List.mem_of_mem_tail hr)⟩

theorem State.ReportLaw.endJob {s : State} (h : s.ReportLaw) (j : Job) (r : JobResult) : (s.endJob j r).ReportLaw :=
  State.ReportLaw.post (s := { s with plan := { s.plan with job := none } }) (h.of_reports rfl) _

/-- A job's end posts; its other items leave the queue. -/
theorem State.ReportLaw.jobItem {s : State} (h : s.ReportLaw) (j : Job) : (s.copyItem j).ReportLaw ∧ (s.checkItem j).ReportLaw := by
  constructor
  · unfold State.copyItem
    dsimp only
    repeat' split
    · exact h.of_reports rfl
    · exact h.of_reports rfl
    · exact State.ReportLaw.endJob (s := s.setBank _ _) (h.of_reports rfl) _ _
    · exact h.of_reports rfl
  · unfold State.checkItem
    dsimp only
    repeat' split
    · exact h.endJob _ _
    · exact h.of_reports rfl
    · exact h.of_reports rfl
    · exact h.endJob _ _
    · exact State.ReportLaw.endJob (s := s.setBank _ _) (h.of_reports rfl) _ _
    · exact h.of_reports rfl

theorem exec_reportLaw {c : Instr} {s t : State} (h : exec c s = .next t) (hs : s.ReportLaw) : t.ReportLaw := by
  by_cases hanswered : c ∈ answeredRows
  · refine answeredRow_keeps hanswered (fun u _ _ _ hu => hu.of_reports rfl) (fun e u hu => ?_) h hs
    by_cases hc : c = .abortJob
    · subst hc
      simp only [ownerRun, runAbortJob]
      split
      · exact State.ReportLaw.endJob (s := u) hu _ _
      · exact hu
    · exact hu.of_reports (ownerRun_reports hc e u)
  · by_cases hjob : c = .jobItemCompletion
    · subst hjob
      simp only [exec, execJobItemCompletion, Host.Outcome.next.injEq] at h
      subst h
      repeat' split
      · exact (hs.jobItem _).1
      · exact (hs.jobItem _).2
      · exact hs
    · obtain ⟨hkinds, hocc⟩ := exec_reports reportQueueLaw_kept hanswered hjob h ⟨hs.kinds, hs.occurrences⟩
      exact ⟨hkinds, hocc⟩

/-! ## The law of the store's bytes (04 section 4.1) -/

/-- What leaves the bytes and the header leaves the law. -/
theorem State.MemoryLaw.of_same {s t : State} (h : s.MemoryLaw) (hm : t.store.mem = s.store.mem)
    (hh : t.lineIn.header = s.lineIn.header) : t.MemoryLaw :=
  ⟨hm ▸ h.canonical, hh ▸ h.header⟩

/-- A receiver with no header. -/
theorem State.MemoryLaw.of_noHeader {s t : State} (h : s.MemoryLaw) (hm : t.store.mem = s.store.mem)
    (hh : t.lineIn.header = []) : t.MemoryLaw :=
  ⟨hm ▸ h.canonical, by simp [hh]⟩

theorem State.MemoryLaw.take {s : State} (h : s.MemoryLaw) (b : Byte) : (s.setLineIn (s.lineIn.take b)).MemoryLaw := by
  refine ⟨h.canonical, ?_⟩
  rw [State.setLineIn_lineIn, LineInReceiver.take_header]
  have hheader := h.header
  split
  · simp only [List.length_append, List.length_singleton]
    omega
  · exact hheader

theorem State.MemoryLaw.classify {s : State} (h : s.MemoryLaw) : s.classify.MemoryLaw := by
  simp only [State.classify, State.classifyManagement, State.classifyForward, State.classifyUnmapped]
  repeat' split
  all_goals exact h.of_same rfl rfl

/-- At most five bytes open a block. -/
theorem State.MemoryLaw.requestBlock {s : State} (h : s.MemoryLaw) (f : Flow) (cls : ReserveClass) {bytes : List Byte}
    (hb : bytes.length ≤ 64) : (s.requestBlock f cls bytes).MemoryLaw := by
  rcases s.store.allocate_cases cls s.settings.reserveFloor.toNat with ⟨b, rest, -, -, ha⟩ | ⟨-, ha⟩
  · simp only [State.requestBlock, ha]
    exact ⟨memWf_write { s.store with free := rest } b 0 bytes h.canonical (by omega), h.header⟩
  · simp only [State.requestBlock, ha]
    exact h.of_same rfl rfl

theorem State.MemoryLaw.presentForward {s : State} (h : s.MemoryLaw) (f : Flow) (cls : ReserveClass) (k : Nat) (b : Byte) :
    (s.presentForward f cls k b).MemoryLaw := by
  have hheader := h.header
  unfold State.presentForward
  repeat' split
  · exact h
  · exact h.requestBlock f cls (by simp only [List.length_append, List.length_singleton]; omega)
  · exact h.of_same rfl rfl
  · exact h.requestBlock f cls (by simp)
  · rename_i last _
    exact ⟨memWf_write s.store last (k % 64) [b] h.canonical (by simp only [List.length_singleton]; omega), h.header⟩
  · exact h

theorem State.MemoryLaw.presentByte {s : State} (h : s.MemoryLaw) (k : Nat) (b : Byte) : (s.presentByte k b).MemoryLaw := by
  simp only [State.presentByte, State.presentManagement]
  repeat' split
  · exact h.of_same rfl rfl
  · exact h.of_same rfl rfl
  · exact h.presentForward _ _ k b
  · exact h
  · exact h

theorem State.powerUp_memoryLaw (straps : BitVec 4) : (State.powerUp straps).MemoryLaw :=
  ⟨memWf_powerUp, by simp [State.powerUp, LineInReceiver.empty]⟩

/-- A frame's end writes nothing. -/
theorem State.endFrame_mem (s : State) : s.endFrame.store.mem = s.store.mem := by
  have hverdict (u : State) (v : Verdict) : (u.applyVerdict v).store.mem = u.store.mem := by
    cases v with
    | forward =>
      simp only [State.applyVerdict, State.handOver]
      split <;> rfl
    | _ => rfl
  exact hverdict _ _

theorem ReceptionRow.keeps_memoryLaw {c : Instr} (hc : ReceptionRow c) {s t : State} (h : exec c s = .next t) (hs : s.MemoryLaw) :
    t.MemoryLaw := by
  cases hc with
  | reset straps =>
    rw [exec_powerUpReset s t h]
    exact (State.powerUp_memoryLaw straps).of_same rfl rfl
  | startDelimiter =>
    simp only [exec, execLineInStartDelimiter, Host.Outcome.next.injEq] at h
    subst h
    split
    · exact hs
    · exact hs.of_noHeader rfl rfl
    all_goals exact hs.of_noHeader (State.endFrame_mem (s.setLineIn _)) rfl
  | byte b =>
    simp only [exec, execLineInByte, Host.Outcome.next.injEq] at h
    subst h
    repeat' split
    · exact hs
    · exact hs
    · exact (hs.take b).classify
    · exact hs.take b
    · exact (hs.take b).presentByte _ _
    · exact hs.take b
    · exact hs.take b
  | endDelimiter =>
    simp only [exec, execLineInEndDelimiter, Host.Outcome.next.injEq] at h
    subst h
    split
    · exact hs.of_noHeader s.endFrame_mem rfl
    · exact hs
  | errorSymbol =>
    simp only [exec, execLineInErrorSymbol, Host.Outcome.next.injEq] at h
    subst h
    split <;> exact hs.of_same rfl rfl
  | comesUp =>
    simp only [exec, execLineInComesUp, Host.Outcome.next.injEq] at h
    subst h
    split
    · exact hs
    · exact hs.of_noHeader rfl rfl
  | goesDown =>
    simp only [exec, execLineInGoesDown, Host.Outcome.next.injEq] at h
    subst h
    split
    · rw [State.mergeDown_frame, State.loseFrame_frame]
      exact hs.of_noHeader rfl rfl
    · exact hs
  | restart =>
    simp only [exec, execRestartAtLineInReceiver, Host.Outcome.next.injEq] at h
    subst h
    split
    · unfold State.restartLineIn
      repeat' split
      all_goals exact hs.of_same rfl rfl
    · exact hs

theorem exec_memoryLaw {c : Instr} {s t : State} (h : exec c s = .next t) (hs : s.MemoryLaw) : t.MemoryLaw := by
  rcases exec_moves h with hm | hc
  · exact hs.of_same hm.mem (congrArg LineInReceiver.header hm.lineIn)
  · exact hc.keeps_memoryLaw h hs

/-- Settles O8: the bytes are written by the rows of reception alone, inside one block; the queue takes postings, and gives up its head. -/
theorem stepKeepsMemoryAndReportLaws : Obligations.StepKeepsMemoryAndReportLaws := fun _ _ h =>
  ⟨step_keeps (fun _ _ hs => hs.of_same rfl rfl) (fun _ _ _ => exec_memoryLaw) h,
    step_keeps (fun _ _ hs => hs.of_reports rfl) (fun _ _ _ => exec_reportLaw) h⟩

end Sys2Proof.Machine
end

section
/-! The laws of reception at every step (O9): the receiver, the classification and the Inbox together, and the records that fit. -/

namespace Sys2Proof.Machine

open Sys2Proof

/-! ## The two halves of the law -/

/-- The laws of the frame in reception and of the Inbox: the first half of the reception law, of the three parts it speaks of. -/
structure ReceiverLaw (r : LineInReceiver) (c : Option Classification) (inbox : List InboxEntry) : Prop where
  bound : inbox.length ≤ 4
  tail : ∀ e ∈ inbox.dropLast, e.complete = true
  place : (∃ e ∈ inbox, e.complete = false) → r.state = .keep ∧ r.overflowed = false ∧ r.restarted = false ∧ r.overLength = false ∧
    ∃ label, c = some { label := label, kind := .management, inboxPlace := true }
  classified : c.isSome = true ↔ r.state = .keep ∨ r.state = .drain
  record : ∀ x, r.record = some x →
    r.state = .keep ∧ ∃ label place, c = some { label := label, kind := .forward x.flow x.reserveClass, inboxPlace := place }
  heldBack : r.holdBack.length = min r.byteCount 4
  counted : (r.state = .header → r.byteCount < 4) ∧ (r.state = .keep ∨ r.state = .drain → 4 ≤ r.byteCount)
  unmarked : r.state = .header → r.truncated = false ∧ r.overLength = false ∧ r.overflowed = false ∧ r.restarted = false
  partialChain : ∀ label f cls place, c = some { label := label, kind := .forward f cls, inboxPlace := place } → r.state = .keep →
    r.byteCount - 4 ≤ 1024 ∧ r.chain.length = blocksAsked (r.byteCount - 4)

/-- What is said of the frames of all queues, said queue by queue. -/
theorem forall_mem_queuesBag (queues : Vector (List QueuedFrame) 256) (p : FrameRecord → Prop) :
    (∀ f ∈ queuesBag queues, p f) ↔ ∀ flow : Flow, ∀ f ∈ queues[flow], p f.toFrameRecord := by
  simp only [queuesBag, bag, Multiset.mem_coe, List.mem_map, List.mem_flatMap, allFlows, List.mem_finRange, true_and]
  exact ⟨fun h flow f hf => h _ ⟨f, ⟨flow, hf⟩, rfl⟩, fun h _ ⟨f, ⟨flow, hf⟩, hx⟩ => hx ▸ h flow f hf⟩

/-- What is said of the frames of all lanes, said lane by lane. -/
theorem forall_mem_lanesBag (lanes : Vector (List ReleasedFrame) 4) (p : FrameRecord → Prop) :
    (∀ f ∈ lanesBag lanes, p f) ↔ ∀ l : Level, ∀ f ∈ lanes[l], p f.toFrameRecord := by
  simp only [lanesBag, bag, Multiset.mem_coe, List.mem_map, List.mem_flatMap]
  exact ⟨fun h l f hf => h _ ⟨f, ⟨l, mem_allLevels l, hf⟩, rfl⟩, fun h _ ⟨f, ⟨l, _, hf⟩, hx⟩ => hx ▸ h l f hf⟩

theorem forall_mem_sentBag (q : List SentFrame) (p : FrameRecord → Prop) :
    (∀ f ∈ sentBag q, p f) ↔ ∀ f ∈ q, p f.toFrameRecord := by
  simp [bag]

/-- The reception law: the receiver's half, and every record held fits its chain. -/
theorem State.receptionLaw_iff (s : State) :
    s.ReceptionLaw ↔ ReceiverLaw s.lineIn s.classifier s.agent.inbox ∧ ∀ f ∈ s.frames, f.fits := by
  simp only [State.frames, PacingUnit.frames, EgressScheduler.frames, Multiset.mem_add, or_imp, forall_and, forall_mem_queuesBag,
    forall_mem_lanesBag, forall_mem_sentBag, Multiset.mem_coe, Option.mem_toList]
  exact ⟨fun h => ⟨⟨h.inboxBound, h.inboxTail, h.inboxPlace, h.classified, h.record, h.heldBack, h.counted, h.unmarked, h.partialChain⟩,
      ⟨h.requestsFit, h.queuesFit⟩, ⟨h.lanesFit, h.currentFits⟩, h.stackFits⟩,
    fun ⟨h, ⟨hr, hq⟩, ⟨hl, hc⟩, hs⟩ =>
      ⟨h.bound, h.tail, h.place, h.classified, h.record, h.heldBack, h.counted, h.unmarked, h.partialChain, hr, hq, hl, hc, hs⟩⟩

/-- With no frame in Keep, the Inbox holds whole commands only (R95). -/
theorem ReceiverLaw.complete {r : LineInReceiver} {c : Option Classification} {inbox : List InboxEntry} (h : ReceiverLaw r c inbox)
    (hk : r.state ≠ .keep) : ∀ e ∈ inbox, e.complete = true := by
  intro e he
  by_contra hc
  exact hk (h.place ⟨e, he, by simpa using hc⟩).1

/-- A receiver that holds nothing, beside an Inbox of whole commands. -/
theorem ReceiverLaw.of_empty {inbox : List InboxEntry} (hb : inbox.length ≤ 4) (hi : ∀ e ∈ inbox, e.complete = true) {st : LineInState}
    (hk : st ≠ .keep) (hd : st ≠ .drain) : ReceiverLaw (LineInReceiver.empty st) none inbox where
  bound := hb
  tail e he := hi e (List.mem_of_mem_dropLast he)
  place := by
    rintro ⟨e, he, hc⟩
    simp [hi e he] at hc
  classified := by simp [LineInReceiver.empty, hk, hd]
  record := by simp [LineInReceiver.empty]
  heldBack := by simp [LineInReceiver.empty]
  counted := by simp [LineInReceiver.empty, hk, hd]
  unmarked := by simp [LineInReceiver.empty]
  partialChain := by simp

/-- A command taken from the Inbox's head leaves the law (R134). -/
theorem ReceiverLaw.inbox_tail {r : LineInReceiver} {c : Option Classification} {inbox : List InboxEntry} (h : ReceiverLaw r c inbox) :
    ReceiverLaw r c inbox.tail where
  bound := by
    have hb := h.bound
    rw [List.length_tail]
    omega
  tail e he := by
    rw [← List.tail_dropLast] at he
    exact h.tail e (List.mem_of_mem_tail he)
  place := fun ⟨e, he, hc⟩ => h.place ⟨e, List.mem_of_mem_tail he, hc⟩
  classified := h.classified
  record := h.record
  heldBack := h.heldBack
  counted := h.counted
  unmarked := h.unmarked
  partialChain := h.partialChain

/-! ## A frame's end (R98) -/

section Verdicts

variable {s : State} (h : ReceiverLaw s.lineIn s.classifier s.agent.inbox)

include h

/-- A frame that is no Management frame in Keep holds no Inbox place. -/
theorem ReceiverLaw.complete_of_kind {c : Classification} (hc : s.classifier = some c) (hk : c.kind ≠ .management) :
    ∀ e ∈ s.agent.inbox, e.complete = true := by
  intro e he
  by_contra hn
  obtain ⟨-, -, -, -, label, hm⟩ := h.place ⟨e, he, by simpa using hn⟩
  rw [hc] at hm
  simp only [Option.some.injEq] at hm
  exact hk (hm ▸ rfl)

/-- A marked frame holds no Inbox place. -/
theorem ReceiverLaw.complete_of_mark (hm : s.lineIn.overflowed = true ∨ s.lineIn.restarted = true ∨ s.lineIn.overLength = true) :
    ∀ e ∈ s.agent.inbox, e.complete = true := by
  intro e he
  by_contra hn
  obtain ⟨-, h1, h2, h3, -⟩ := h.place ⟨e, he, by simpa using hn⟩
  simp [h1, h2, h3] at hm

/-- After any verdict the Inbox holds whole commands only, at most four (R98). -/
theorem ReceiverLaw.applyVerdict {u : State} (hu : u.agent.inbox = s.agent.inbox) :
    (u.applyVerdict (s.lineIn.verdict s.classifier)).agent.inbox.length ≤ 4 ∧
      ∀ e ∈ (u.applyVerdict (s.lineIn.verdict s.classifier)).agent.inbox, e.complete = true := by
  have hb := h.bound
  have hfree : ((u.agent.inbox.filter (fun e => e.complete)).length ≤ 4) ∧
      ∀ e ∈ u.agent.inbox.filter (fun e => e.complete), e.complete = true :=
    ⟨(List.length_filter_le ..).trans (hu ▸ hb), fun e he => by simpa using (List.mem_filter.1 he).2⟩
  have hall : (u.agent.inbox.map (fun e => { e with complete := true })).length ≤ 4 ∧
      ∀ e ∈ u.agent.inbox.map (fun e => { e with complete := true }), e.complete = true :=
    ⟨by rw [List.length_map, hu]; exact hb, fun e he => by
      obtain ⟨x, -, rfl⟩ := List.mem_map.1 he
      rfl⟩
  have hkeep (hc : ∀ e ∈ s.agent.inbox, e.complete = true) : u.agent.inbox.length ≤ 4 ∧ ∀ e ∈ u.agent.inbox, e.complete = true :=
    ⟨hu ▸ hb, hu ▸ hc⟩
  have hon (c : Classification) (hc : s.classifier = some c) :
      (u.applyVerdict (s.lineIn.verdictOn c)).agent.inbox.length ≤ 4 ∧
        ∀ e ∈ (u.applyVerdict (s.lineIn.verdictOn c)).agent.inbox, e.complete = true := by
    unfold LineInReceiver.verdictOn
    split
    · exact hkeep (h.complete_of_mark (by simp_all))
    · split
      · exact hfree
      · split
        · exact hfree
        · split
          · exact hkeep (h.complete_of_kind hc (by simp_all))
          · exact hall
          · have hover : u.handOver.agent.inbox = u.agent.inbox := by
              unfold State.handOver
              split <;> rfl
            simp only [State.applyVerdict, hover]
            exact hkeep (h.complete_of_kind hc (by simp_all))
  unfold LineInReceiver.verdict
  split
  · rename_i hc
    refine hkeep (h.complete fun hk => ?_)
    have := h.classified.2 (.inl hk)
    simp [hc] at this
  · rename_i c hc
    split
    · refine hkeep (h.complete fun hk => ?_)
      have := h.counted.2 (.inl hk)
      omega
    · split
      · exact hkeep (h.complete_of_mark (by simp_all))
      · split
        · exact hkeep (h.complete_of_mark (by simp_all))
        · split
          · split
            · exact hkeep (h.complete_of_kind hc (by simp_all))
            · exact hon c hc
          · exact hon c hc
          · exact hon c hc

/-- A forward frame that is good at its end fits its chain (R79, R99). -/
theorem ReceiverLaw.handOver_fits {x : ReceptionRecord} (hx : s.lineIn.record = some x) (hl : 12 ≤ s.lineIn.byteCount) :
    FrameRecord.fits { toReceptionRecord := x, length := s.lineIn.byteCount - 4 } := by
  obtain ⟨hk, label, place, hc⟩ := h.record x hx
  obtain ⟨hmax, hchain⟩ := h.partialChain _ _ _ _ hc hk
  have hxc : s.lineIn.chain = x.chain := by simp only [LineInReceiver.chain, hx]
  rw [hxc, blocksAsked, if_neg (by omega)] at hchain
  exact ⟨by simp only; omega, hmax, hchain⟩

end Verdicts

/-- The verdict forward is of a frame of at least 12 bytes. -/
theorem LineInReceiver.verdict_forward {r : LineInReceiver} {c : Option Classification} (hv : r.verdict c = .forward) :
    12 ≤ r.byteCount := by
  have hon (c : Classification) (hv : r.verdictOn c = .forward) : 12 ≤ r.byteCount := by
    unfold LineInReceiver.verdictOn at hv
    by_contra hlt
    have hshort : r.byteCount - 4 < 8 := by omega
    simp only [hshort, if_true] at hv
    repeat' split at hv
    all_goals simp at hv
  unfold LineInReceiver.verdict at hv
  repeat' split at hv
  all_goals first
    | exact hon _ hv
    | simp at hv

end Sys2Proof.Machine
end

section
/-! The reception law row by row: a byte, a frame's end, the line's comings and goings, Restart Traffic; and every other row (O9). -/

namespace Sys2Proof.Machine

open Sys2Proof

/-! ## A byte of the frame in reception (R92, R93) -/

section Take

variable (r : LineInReceiver) (b : Byte)

@[simp] theorem LineInReceiver.take_truncated : (r.take b).truncated = r.truncated := by rw [LineInReceiver.take_frame]

@[simp] theorem LineInReceiver.take_overLength : (r.take b).overLength = r.overLength := by rw [LineInReceiver.take_frame]

@[simp] theorem LineInReceiver.take_overflowed : (r.take b).overflowed = r.overflowed := by rw [LineInReceiver.take_frame]

@[simp] theorem LineInReceiver.take_restarted : (r.take b).restarted = r.restarted := by rw [LineInReceiver.take_frame]

/-- The hold-back keeps the last four bytes. -/
theorem LineInReceiver.take_heldBack (h : r.holdBack.length = min r.byteCount 4) :
    (r.take b).holdBack.length = min (r.take b).byteCount 4 := by
  rw [LineInReceiver.take_byteCount]
  by_cases hlt : r.holdBack.length < 4
  · rw [(r.take_part b hlt).1, List.length_append, List.length_singleton]
    omega
  · obtain ⟨o, rest, hh⟩ := List.exists_cons_of_length_pos (l := r.holdBack) (by omega)
    rw [hh, List.length_cons] at h
    rw [hh, List.length_cons] at hlt
    rw [(r.take_full o b rest hh (by omega)).1, List.length_append, List.length_singleton]
    omega

/-- From the fifth byte of a frame on, a byte leaves the hold-back. -/
theorem LineInReceiver.leaving_isSome (h : r.holdBack.length = min r.byteCount 4) (hc : 4 ≤ r.byteCount) :
    ∃ o, r.leaving = some o := by
  match hh : r.holdBack with
  | [] | [_] | [_, _] | [_, _, _] =>
    rw [hh] at h
    simp at h
    omega
  | o :: _ :: _ :: _ :: _ => exact ⟨o, by simp [LineInReceiver.leaving, hh]⟩

end Take

/-- Blocks asked for by one more byte: a first block at byte 4, a further one at bytes 64, 128, ... (R79). -/
theorem blocksAsked_succ (k : Nat) :
    blocksAsked (k + 1) = if k = 4 ∨ (4 < k ∧ k % 64 = 0) then blocksAsked k + 1 else blocksAsked k := by
  simp only [blocksAsked, blocksOf]
  repeat' split
  all_goals omega

/-- With no frame in Keep there is no record. -/
theorem ReceiverLaw.record_none {r : LineInReceiver} {c : Option Classification} {inbox : List InboxEntry} (h : ReceiverLaw r c inbox)
    (hk : r.state ≠ .keep) : r.record = none :=
  Option.eq_none_iff_forall_ne_some.2 fun x hx => hk (h.record x hx).1

/-- A receiver that drains, holding no block, beside an Inbox of whole commands. -/
theorem ReceiverLaw.of_drain {r : LineInReceiver} {c : Option Classification} {inbox : List InboxEntry} (hr : r.state = .drain)
    (hrecord : r.record = none) (hheld : r.holdBack.length = min r.byteCount 4) (hcount : 4 ≤ r.byteCount) (hc : c.isSome = true)
    (hb : inbox.length ≤ 4) (hi : ∀ e ∈ inbox, e.complete = true) : ReceiverLaw r c inbox where
  bound := hb
  tail e he := hi e (List.mem_of_mem_dropLast he)
  place := by
    rintro ⟨e, he, hn⟩
    simp [hi e he] at hn
  classified := by simp [hr, hc]
  record := by simp [hrecord]
  heldBack := hheld
  counted := by simp [hr, hcount]
  unmarked := by simp [hr]
  partialChain := by simp [hr]

/-- Bytes written into the entries of the Inbox leave the law (R93). -/
theorem ReceiverLaw.inbox_map {r : LineInReceiver} {c : Option Classification} {inbox : List InboxEntry} (h : ReceiverLaw r c inbox)
    (g : InboxEntry → InboxEntry) (hg : ∀ e, (g e).complete = e.complete) : ReceiverLaw r c (inbox.map g) where
  bound := by simpa using h.bound
  tail e he := by
    rw [← List.map_dropLast] at he
    obtain ⟨x, hx, rfl⟩ := List.mem_map.1 he
    exact (hg x).trans (h.tail x hx)
  place := by
    rintro ⟨e, he, hn⟩
    obtain ⟨x, hx, rfl⟩ := List.mem_map.1 he
    exact h.place ⟨x, hx, (hg x).symm.trans hn⟩
  classified := h.classified
  record := h.record
  heldBack := h.heldBack
  counted := h.counted
  unmarked := h.unmarked
  partialChain := h.partialChain

section Byte

variable {s : State} (h : ReceiverLaw s.lineIn s.classifier s.agent.inbox)

include h

/-- A byte that is neither classified nor presented: in Drain, or in Header before the fourth. -/
theorem ReceiverLaw.take (b : Byte) (hs : s.lineIn.state = .drain ∨ (s.lineIn.state = .header ∧ s.lineIn.byteCount + 1 ≠ 4)) :
    ReceiverLaw (s.lineIn.take b) s.classifier s.agent.inbox where
  bound := h.bound
  tail := h.tail
  place := by simpa using h.place
  classified := by simpa using h.classified
  record := by simpa using h.record
  heldBack := s.lineIn.take_heldBack b h.heldBack
  counted := by
    obtain ⟨hlt, hge⟩ := h.counted
    simp only [LineInReceiver.take_state, LineInReceiver.take_byteCount]
    rcases hs with hs | ⟨hs, h4⟩
    · have := hge (.inr hs)
      simp only [hs]
      exact ⟨nofun, fun _ => by omega⟩
    · have := hlt hs
      simp only [hs]
      exact ⟨fun _ => by omega, by simp⟩
  unmarked := by simpa using h.unmarked
  partialChain label f cls place hc hk := by
    rcases hs with hs | ⟨hs, -⟩ <;> simp [hs] at hk

/-- The fourth byte: a Management frame takes a place, a forward frame is kept without a block, and any other is drained (R94). -/
theorem ReceiverLaw.classify (b : Byte) (hs : s.lineIn.state = .header) (h4 : s.lineIn.byteCount + 1 = 4) :
    let u := (s.setLineIn (s.lineIn.take b)).classify
    ReceiverLaw u.lineIn u.classifier u.agent.inbox := by
  have hcomplete := h.complete (by simp [hs])
  have hrecord := h.record_none (by simp [hs])
  have hchain : s.lineIn.chain = [] := by simp only [LineInReceiver.chain, hrecord]
  have hheld := s.lineIn.take_heldBack b h.heldBack
  obtain ⟨ht, ho, hv, hr⟩ := h.unmarked hs
  have hb := h.bound
  have hforward (label : Word16) (f : Flow) (cls : ReserveClass) :
      ReceiverLaw { s.lineIn.take b with state := .keep }
        (some { label := label, kind := .forward f cls, inboxPlace := false }) s.agent.inbox :=
    { bound := hb
      tail := h.tail
      place := by
        rintro ⟨e, he, hc⟩
        simp [hcomplete e he] at hc
      classified := by simp
      record := by simp [hrecord]
      heldBack := hheld
      counted := by simp [h4]
      unmarked := by simp
      partialChain := fun _ _ _ _ _ _ => by
        have hc : LineInReceiver.chain { s.lineIn.take b with state := .keep } = [] := (s.lineIn.take_chain b).trans hchain
        refine ⟨by simp [h4], ?_⟩
        rw [hc]
        simp [h4, blocksAsked] }
  simp only [State.classify, State.classifyManagement, State.classifyForward, State.classifyUnmapped]
  repeat' split
  · rename_i hroom
    exact
      { bound := by
          simp only [State.setLineIn_agent, List.length_append, List.length_singleton] at hroom ⊢
          omega
        tail := by simpa using hcomplete
        place := fun _ => ⟨rfl, by simpa using hv, by simpa using hr, by simpa using ho, _, rfl⟩
        classified := by simp
        record := by simp [hrecord]
        heldBack := hheld
        counted := by simp [h4]
        unmarked := by simp
        partialChain := by simp }
  · exact .of_drain rfl (by simpa using hrecord) hheld (by simp [h4]) rfl hb hcomplete
  · exact hforward _ _ _
  · exact hforward _ _ _
  · exact .of_drain rfl (by simpa using hrecord) hheld (by simp [h4]) rfl hb hcomplete

/-- In Keep a byte joins the frame; with the blocks it asks for in the chain the law stays. -/
theorem ReceiverLaw.take_keep (b : Byte) (hs : s.lineIn.state = .keep)
    (hp : ∀ label f cls place, s.classifier = some { label := label, kind := .forward f cls, inboxPlace := place } →
      s.lineIn.byteCount - 4 + 1 ≤ 1024 ∧ s.lineIn.chain.length = blocksAsked (s.lineIn.byteCount - 4 + 1)) :
    ReceiverLaw (s.lineIn.take b) s.classifier s.agent.inbox where
  bound := h.bound
  tail := h.tail
  place := by simpa using h.place
  classified := by simpa using h.classified
  record := by simpa using h.record
  heldBack := s.lineIn.take_heldBack b h.heldBack
  counted := by
    have hge := h.counted.2 (.inl hs)
    simp only [LineInReceiver.take_state, LineInReceiver.take_byteCount, hs]
    exact ⟨nofun, fun _ => by omega⟩
  unmarked := by simp [hs]
  partialChain label f cls place hc _ := by
    have hge := h.counted.2 (.inl hs)
    rw [LineInReceiver.take_byteCount, LineInReceiver.take_chain, Nat.sub_add_comm hge]
    exact hp label f cls place hc

/-- A byte past the greatest length: the frame drains, and its storage is given up (R84, R96). -/
theorem ReceiverLaw.overrun (b : Byte) (hs : s.lineIn.state = .keep) :
    let u := (s.setLineIn (s.lineIn.take b)).overrun
    ReceiverLaw u.lineIn u.classifier u.agent.inbox := by
  have hge := h.counted.2 (.inl hs)
  have hb := h.bound
  refine .of_drain rfl rfl (s.lineIn.take_heldBack b h.heldBack) ?_ ?_ ((List.length_filter_le ..).trans hb) fun e he => ?_
  · show 4 ≤ (s.lineIn.take b).byteCount
    rw [LineInReceiver.take_byteCount]
    omega
  · show (s.classifier.map _).isSome = true
    rw [Option.isSome_map]
    exact h.classified.2 (.inl hs)
  · simpa using (List.mem_filter.1 he).2

/-- A block request granted or refused (R79, R82). -/
theorem ReceiverLaw.requestBlock (b : Byte) (hs : s.lineIn.state = .keep) {label : Word16} {f : Flow} {cls : ReserveClass} {place : Bool}
    (hc : s.classifier = some { label := label, kind := .forward f cls, inboxPlace := place }) (bytes : List Byte)
    (hlt : s.lineIn.byteCount - 4 < 1024)
    (hopens : s.lineIn.byteCount - 4 = 4 ∨ (4 < s.lineIn.byteCount - 4 ∧ (s.lineIn.byteCount - 4) % 64 = 0)) :
    let u := (s.setLineIn (s.lineIn.take b)).requestBlock f cls bytes
    ReceiverLaw u.lineIn u.classifier u.agent.inbox := by
  have hge := h.counted.2 (.inl hs)
  have hheld := s.lineIn.take_heldBack b h.heldBack
  have hcomplete := h.complete_of_kind hc nofun
  rcases FrameStore.allocate_cases (s.setLineIn (s.lineIn.take b)).store cls
      (s.setLineIn (s.lineIn.take b)).settings.reserveFloor.toNat with ⟨blk, rest, -, -, ha⟩ | ⟨-, ha⟩
  · simp only [State.requestBlock, ha]
    exact
      { bound := h.bound
        tail := h.tail
        place := by
          rintro ⟨e, he, hn⟩
          simp [hcomplete e he] at hn
        classified := by simp [hc, hs]
        record := by
          rintro x hx
          simp only [Option.some.injEq] at hx
          subst hx
          exact ⟨by simp [hs], label, place, hc⟩
        heldBack := hheld
        counted := by
          simp only [State.setLineIn_lineIn, LineInReceiver.take_state, LineInReceiver.take_byteCount, hs]
          exact ⟨nofun, fun _ => by omega⟩
        unmarked := by simp [hs]
        partialChain := fun _ _ _ _ _ _ => by
          obtain ⟨-, hcount⟩ := h.partialChain _ _ _ _ hc hs
          constructor
          · show (s.lineIn.take b).byteCount - 4 ≤ 1024
            rw [LineInReceiver.take_byteCount]
            omega
          · show ((s.lineIn.take b).chain ++ [blk]).length = blocksAsked ((s.lineIn.take b).byteCount - 4)
            rw [List.length_append, LineInReceiver.take_chain, LineInReceiver.take_byteCount, Nat.sub_add_comm hge, blocksAsked_succ,
              if_pos hopens, hcount, List.length_singleton] }
  · simp only [State.requestBlock, ha]
    refine .of_drain rfl rfl hheld ?_ (congrArg Option.isSome hc) h.bound hcomplete
    show 4 ≤ (s.lineIn.take b).byteCount
    rw [LineInReceiver.take_byteCount]
    omega

/-- A byte presented (R79, R84, R93, R96). -/
theorem ReceiverLaw.presentByte (b o : Byte) (hs : s.lineIn.state = .keep) :
    let u := (s.setLineIn (s.lineIn.take b)).presentByte (s.lineIn.byteCount - 4) o
    ReceiverLaw u.lineIn u.classifier u.agent.inbox := by
  have hge := h.counted.2 (.inl hs)
  simp only [State.presentByte, State.setLineIn_classifier]
  split
  · rename_i c hc
    split
    · rename_i hkind
      have htake := h.take_keep b hs fun label f cls place hc' => by
        rw [hc, Option.some.injEq] at hc'
        simp [hc'] at hkind
      unfold State.presentManagement
      split
      · exact h.overrun b hs
      · exact htake.inbox_map _ fun e => by split <;> rfl
    · rename_i f cls hkind
      obtain ⟨label, kind, place⟩ := c
      simp only at hkind
      subst hkind
      obtain ⟨hmax, hchain⟩ := h.partialChain _ _ _ _ hc hs
      have htake (hlt : s.lineIn.byteCount - 4 < 1024)
          (hopens : ¬ (s.lineIn.byteCount - 4 = 4 ∨ (4 < s.lineIn.byteCount - 4 ∧ (s.lineIn.byteCount - 4) % 64 = 0))) :
          ReceiverLaw (s.lineIn.take b) s.classifier s.agent.inbox :=
        h.take_keep b hs fun _ _ _ _ _ => ⟨by omega, by rw [blocksAsked_succ, if_neg hopens, hchain]⟩
      unfold State.presentForward
      repeat' split
      · exact htake (by omega) (by omega)
      · exact h.requestBlock b hs hc _ (by omega) (by omega)
      · exact h.overrun b hs
      · exact h.requestBlock b hs hc _ (by omega) (by omega)
      · exact htake (by omega) (by omega)
      · exact htake (by omega) (by omega)
    · rename_i hkind
      exact h.take_keep b hs fun label f cls place hc' => by
        rw [hc, Option.some.injEq] at hc'
        simp [hc'] at hkind
  · exact h.take_keep b hs fun label f cls place hc' => by simp_all

end Byte

end Sys2Proof.Machine
end

section
/-! The reception law at every row, and at every step (O9). -/

namespace Sys2Proof.Machine

open Sys2Proof

/-! ## The records held, at the rows of reception -/

section Frames

variable (s : State)

theorem State.classify_frames : s.classify.frames = s.frames := by
  simp only [State.classify, State.classifyManagement, State.classifyForward, State.classifyUnmapped]
  repeat' split
  all_goals rfl

theorem State.presentByte_frames (k : Nat) (b : Byte) : (s.presentByte k b).frames = s.frames := by
  simp only [State.presentByte, State.presentForward, State.requestBlock, State.presentManagement, State.overrun]
  repeat' split
  all_goals rfl

theorem State.restartLineIn_frames : s.restartLineIn.frames = s.frames := by
  rw [State.restartLineIn_frame]
  rfl

/-- A frame's end hands over one record at most, of a frame that fits its chain (R98, R99). -/
theorem State.endFrame_fits (h : ReceiverLaw s.lineIn s.classifier s.agent.inbox) (hf : ∀ f ∈ s.frames, f.fits) :
    ∀ f ∈ s.endFrame.frames, f.fits := by
  have hleave : s.endFrame.frames = ((s.count .lineInFrames).applyVerdict (s.lineIn.verdict s.classifier)).frames := rfl
  rw [hleave]
  cases hv : s.lineIn.verdict s.classifier with
  | forward =>
    simp only [State.applyVerdict, State.handOver]
    split
    · rename_i x hx
      have hframes : State.frames
          { s.count .lineInFrames with
            lineIn := { (s.count .lineInFrames).lineIn with record := none },
            pacing := { (s.count .lineInFrames).pacing with
              requests := (s.count .lineInFrames).pacing.requests ++
                [{ toReceptionRecord := x, length := (s.count .lineInFrames).lineIn.byteCount - 4 }] } } =
          s.frames + {{ toReceptionRecord := x, length := s.lineIn.byteCount - 4 }} := by
        simp only [State.frames, PacingUnit.frames, State.count_pacing, State.count_lineIn, State.count_egress, ← Multiset.coe_add,
          Multiset.coe_singleton]
        abel
      rw [hframes]
      intro f hmem
      rcases Multiset.mem_add.1 hmem with hold | hnew
      · exact hf f hold
      · rw [Multiset.mem_singleton.1 hnew]
        exact h.handOver_fits hx (LineInReceiver.verdict_forward hv)
    · exact hf
  | _ => exact hf

end Frames

/-! ## The rows of reception -/

theorem State.powerUp_receptionLaw (straps : BitVec 4) : (State.powerUp straps).ReceptionLaw := by
  rw [State.receptionLaw_iff, State.powerUp_frames]
  exact ⟨.of_empty (inbox := []) (Nat.zero_le 4) (fun _ h => absurd h List.not_mem_nil) nofun nofun, fun f hf => absurd hf (Multiset.notMem_zero f)⟩

/-- What leaves the receiver, the classification and the Inbox, and takes in no record, keeps the reception law. -/
theorem State.ReceptionLaw.of_same {s t : State} (h : s.ReceptionLaw) (hl : t.lineIn = s.lineIn) (hc : t.classifier = s.classifier)
    (hi : t.agent.inbox = s.agent.inbox) (hf : t.frames ≤ s.frames) : t.ReceptionLaw := by
  rw [State.receptionLaw_iff] at h ⊢
  rw [hl, hc, hi]
  exact ⟨h.1, fun f hmem => h.2 f (Multiset.mem_of_le hf hmem)⟩

/-- A mark of the frame in reception for a bad symbol bears on none of its laws (R92). -/
theorem ReceiverLaw.markBad {r : LineInReceiver} {c : Option Classification} {inbox : List InboxEntry} (h : ReceiverLaw r c inbox) :
    ReceiverLaw { r with bad := true } c inbox :=
  ⟨h.bound, h.tail, h.place, h.classified, h.record, h.heldBack, h.counted, h.unmarked, h.partialChain⟩

/-- After a frame's end nothing is in reception, and the Inbox holds whole commands (R98). -/
theorem State.ReceptionLaw.endFrame {s : State} (h : s.ReceptionLaw) :
    s.endFrame.agent.inbox.length ≤ 4 ∧ (∀ e ∈ s.endFrame.agent.inbox, e.complete = true) ∧ ∀ f ∈ s.endFrame.frames, f.fits := by
  obtain ⟨hr, hf⟩ := s.receptionLaw_iff.1 h
  obtain ⟨hb, hi⟩ := hr.applyVerdict (u := s.count .lineInFrames) rfl
  exact ⟨hb, hi, s.endFrame_fits hr hf⟩

/-- The frame in reception with Restart Traffic's mark; drained by it, it holds no block (R106). -/
theorem ReceiverLaw.restartLineIn {s : State} (h : ReceiverLaw s.lineIn s.classifier s.agent.inbox) :
    ReceiverLaw s.restartLineIn.lineIn s.restartLineIn.classifier s.restartLineIn.agent.inbox := by
  unfold State.restartLineIn
  split
  · rename_i label f cls place hc
    have hcomplete := h.complete_of_kind hc nofun
    have hmarked : ReceiverLaw { s.lineIn with restarted := true } s.classifier s.agent.inbox :=
      ⟨h.bound, h.tail, fun ⟨e, he, hn⟩ => by simp [hcomplete e he] at hn, h.classified, h.record, h.heldBack, h.counted,
        fun hh => by
          have := h.classified.1 (congrArg Option.isSome hc)
          simp only at hh
          simp [hh] at this,
        h.partialChain⟩
    repeat' split
    · exact h
    · exact hmarked
    · exact hmarked
    · exact .of_drain rfl rfl h.heldBack (h.counted.2 (h.classified.1 (congrArg Option.isSome hc))) (congrArg Option.isSome hc) h.bound
        hcomplete
  · exact h

theorem ReceptionRow.keeps_receptionLaw {c : Instr} (hrow : ReceptionRow c) {s t : State} (h : exec c s = .next t)
    (hs : s.ReceptionLaw) : t.ReceptionLaw := by
  obtain ⟨hr, hf⟩ := s.receptionLaw_iff.1 hs
  cases hrow with
  | reset straps =>
    rw [exec_powerUpReset s t h]
    exact (State.powerUp_receptionLaw straps).of_same rfl rfl rfl le_rfl
  | startDelimiter =>
    have hbad : (s.setLineIn { s.lineIn with bad := true }).ReceptionLaw := (State.receptionLaw_iff _).2 ⟨hr.markBad, hf⟩
    obtain ⟨hb, hi, hends⟩ := hbad.endFrame
    simp only [exec, execLineInStartDelimiter, Host.Outcome.next.injEq] at h
    subst h
    split
    · exact hs
    · rename_i hidle
      have hclass : s.classifier = none := by
        rw [← Option.not_isSome_iff_eq_none, hr.classified]
        simp [hidle]
      rw [State.receptionLaw_iff]
      refine ⟨?_, hf⟩
      show ReceiverLaw (LineInReceiver.empty .header) s.classifier s.agent.inbox
      rw [hclass]
      exact .of_empty hr.bound (hr.complete (by simp [hidle])) nofun nofun
    all_goals exact (State.receptionLaw_iff _).2 ⟨.of_empty hb hi nofun nofun, hends⟩
  | byte b =>
    simp only [exec, execLineInByte, Host.Outcome.next.injEq] at h
    subst h
    rw [State.receptionLaw_iff]
    split
    · exact ⟨hr, hf⟩
    · exact ⟨hr, hf⟩
    · rename_i hheader
      split
      · rename_i h4
        exact ⟨hr.classify b hheader (by simpa using h4), by rw [State.classify_frames]; exact hf⟩
      · rename_i h4
        exact ⟨hr.take b (.inr ⟨hheader, by simpa using h4⟩), hf⟩
    · rename_i hkeep
      obtain ⟨o, ho⟩ := s.lineIn.leaving_isSome hr.heldBack (hr.counted.2 (.inl hkeep))
      simp only [ho]
      exact ⟨hr.presentByte b o hkeep, by rw [State.presentByte_frames]; exact hf⟩
    · rename_i hdrain
      exact ⟨hr.take b (.inl hdrain), hf⟩
  | endDelimiter =>
    obtain ⟨hb, hi, hends⟩ := hs.endFrame
    simp only [exec, execLineInEndDelimiter, Host.Outcome.next.injEq] at h
    subst h
    split
    · exact (State.receptionLaw_iff _).2 ⟨.of_empty hb hi nofun nofun, hends⟩
    · exact hs
  | errorSymbol =>
    simp only [exec, execLineInErrorSymbol, Host.Outcome.next.injEq] at h
    subst h
    split
    · exact (State.receptionLaw_iff _).2 ⟨hr.markBad, hf⟩
    · exact hs
  | comesUp =>
    simp only [exec, execLineInComesUp, Host.Outcome.next.injEq] at h
    subst h
    split
    · exact hs
    · rename_i hup
      have hdown : s.lineIn.state = .down := by simpa [LineInReceiver.up] using hup
      have hclass : s.classifier = none := by
        rw [← Option.not_isSome_iff_eq_none, hr.classified]
        simp [hdown]
      rw [State.receptionLaw_iff]
      refine ⟨?_, hf⟩
      show ReceiverLaw (LineInReceiver.empty .idle) s.classifier s.agent.inbox
      rw [hclass]
      exact .of_empty hr.bound (hr.complete (by simp [hdown])) nofun nofun
  | goesDown =>
    simp only [exec, execLineInGoesDown, Host.Outcome.next.injEq] at h
    subst h
    split
    · rw [State.mergeDown_frame, State.loseFrame_frame, State.receptionLaw_iff]
      exact ⟨.of_empty ((List.length_filter_le ..).trans hr.bound) (fun e he => by simpa using (List.mem_filter.1 he).2) nofun nofun, hf⟩
    · exact hs
  | restart =>
    simp only [exec, execRestartAtLineInReceiver, Host.Outcome.next.injEq] at h
    subst h
    split
    · rw [State.receptionLaw_iff]
      exact ⟨ReceiverLaw.restartLineIn (s := { s with agent := _ }) hr, by rw [State.restartLineIn_frames]; exact hf⟩
    · exact hs

/-! ## Every other row -/

/-- Outside reception the classification stays, and the Inbox loses at most the command begun (R134). -/
theorem exec_inbox {c : Instr} {s t : State} (h : exec c s = .next t) (hrow : ¬ ReceptionRow c) :
    t.classifier = s.classifier ∧ (t.agent.inbox = s.agent.inbox ∨ t.agent.inbox = s.agent.inbox.tail) := by
  have same {u : State} (hu : t = u) (hx : u.classifier = s.classifier) (hi : u.agent.inbox = s.agent.inbox) :
      t.classifier = s.classifier ∧ (t.agent.inbox = s.agent.inbox ∨ t.agent.inbox = s.agent.inbox.tail) := by
    rw [hu]
    exact ⟨hx, .inl hi⟩
  induction c using Instr.byRows with
  | answered c hc =>
    obtain ⟨-, -, hx, -, -, -, -, -, -, -, -, ⟨hi, -⟩ | ⟨e, r, -, hi, -⟩⟩ := answeredRow_frame c hc s t h
    · exact ⟨hx, .inl hi⟩
    · exact ⟨hx, .inr hi⟩
  | powerUpReset straps => exact absurd (.reset straps) hrow
  | lineInStartDelimiter => exact absurd .startDelimiter hrow
  | lineInByte b => exact absurd (.byte b) hrow
  | lineInEndDelimiter => exact absurd .endDelimiter hrow
  | lineInErrorSymbol => exact absurd .errorSymbol hrow
  | lineInComesUp => exact absurd .comesUp hrow
  | lineInGoesDown => exact absurd .goesDown hrow
  | restartAtLineIn => exact absurd .restart hrow
  | holdSymbol arg => exact same (frame_holdSymbol s t arg h) rfl rfl
  | receivedSymbol symbol arg =>
    simp only [exec, execReceivedAbortOrStreamReset, Host.Outcome.next.injEq] at h
    exact same h.symm rfl rfl
  | returnStartDelimiter => exact same (frame_returns s t .returnStartDelimiter (by simp) h) rfl rfl
  | returnByte b => exact same (frame_returns s t (.returnByte b) (by simp) h) rfl rfl
  | returnEndDelimiter => exact same (frame_returns s t .returnEndDelimiter (by simp) h) rfl rfl
  | returnErrorSymbol => exact same (frame_returns s t .returnErrorSymbol (by simp) h) rfl rfl
  | lineOutComesUp => exact same (frame_lineOutComesUp s t h) rfl rfl
  | lineOutGoesDown => exact same (frame_lineOutGoesDown s t h) rfl rfl
  | segmentCompletion => exact same (frame_segmentCompletion s t h) rfl rfl
  | controlSymbolCompletion => exact same (frame_controlSymbolCompletion s t h) rfl rfl
  | tickExpiry => exact same (frame_tickExpiry s t h) rfl rfl
  | stallTimerExpiry l => exact same (frame_stallTimerExpiry s t l h) rfl rfl
  | contextChange c f hf => exact same (frame_contextChange s t c f hf h) rfl rfl
  | admissionRequest => exact same (frame_admissionRequest s t h) rfl rfl
  | returnMergeChoice => exact same (frame_returnMergeChoice s t h) rfl rfl
  | transmissionCompletion => exact same (frame_transmissionCompletion s t h) rfl rfl
  | jobItemCompletion => exact same (frame_jobItemCompletion s t h) rfl rfl
  | restartTraffic =>
    have hx : t.classifier = s.classifier := by rw [frame_restartTraffic s t h]
    refine ⟨hx, ?_⟩
    simp only [exec, execRestartTraffic, Host.Outcome.next.injEq] at h
    have hb := s.beginCommand_cases (InboxEntry.isCommand 0x12) [0] runRestartTraffic
    rw [h] at hb
    cases hb with
    | nothing => exact .inl rfl
    | repeated e r hm => exact .inr rfl
    | malformed e hm => exact .inr rfl
    | answered e st results hm hr => exact .inr rfl
    | unanswered e hm hr => exact .inr rfl
  | restartAtPacing =>
    obtain ⟨hx, ha⟩ := frame_restartAtPacingUnit s t h
    have hi : t.agent.inbox = s.agent.inbox := by rw [ha]
    exact same hx rfl hi
  | restartAtEgress =>
    obtain ⟨hx, ha⟩ := frame_restartAtEgress s t h
    have hi : t.agent.inbox = s.agent.inbox := by rw [ha]
    exact same hx rfl hi
  | restartCompletion =>
    have hx : t.classifier = s.classifier := by rw [frame_restartCompletion s t h]
    refine ⟨hx, .inl ?_⟩
    simp only [exec, execRestartTrafficCompletion, Host.Outcome.next.injEq] at h
    subst h
    split <;> rfl

/-- One command keeps the laws of reception. -/
theorem exec_receptionLaw {c : Instr} {s t : State} (h : exec c s = .next t) (hs : s.ReceptionLaw) : t.ReceptionLaw := by
  by_cases hrow : ReceptionRow c
  · exact hrow.keeps_receptionLaw h hs
  · have hm := (exec_moves h).resolve_right hrow
    obtain ⟨hr, hf⟩ := s.receptionLaw_iff.1 hs
    obtain ⟨hx, hi⟩ := exec_inbox h hrow
    rw [State.receptionLaw_iff, hm.lineIn, hx]
    refine ⟨?_, fun f hmem => hf f (Multiset.mem_of_le hm.frames_le hmem)⟩
    rcases hi with hi | hi <;> rw [hi]
    · exact hr
    · exact hr.inbox_tail

/-- Settles O9: outside reception no record is taken in; in reception the law goes case by case along the receiver's states. -/
theorem stepKeepsReceptionLaw : Obligations.StepKeepsReceptionLaw := fun _ _ hs h =>
  step_keeps (fun _ _ hs => hs.of_same rfl rfl rfl le_rfl) (fun _ _ _ => exec_receptionLaw) h hs

end Sys2Proof.Machine
end

section
/-! The laws of the Return Buffer, the Outbox and the line-in transmitter at every step (O10). -/

namespace Sys2Proof.Machine

open Sys2Proof

/-! ## The three parts of the law -/

/-- The law of the Return Buffer beside the Line-Out Receiver's state (R152 to R154). -/
structure BufferLaw (buffer : List ReturnEntry) (state : LineOutState) : Prop where
  bound : buffer.length ≤ 2
  tail : ∀ e ∈ buffer.dropLast, e.complete = true
  storing : state = .storing ↔ ∃ e ∈ buffer, e.complete = false
  sizes : ∀ e ∈ buffer, e.bytes.length ≤ 1028 ∧ (e.complete = true → 12 ≤ e.bytes.length)

/-- The law of the Outbox beside the execution state (R135, R147). -/
structure OutboxLaw (outbox : List OutboxEntry) (execution : Execution) : Prop where
  bound : outbox.length ≤ 2
  free : execution = .free → OutboxEntry.reserved ∉ outbox
  restarting : execution ≠ .free → ∃ before, outbox = before ++ [.reserved] ∧ OutboxEntry.reserved ∉ before

/-- The law of the line-in transmitter: what it sends is the head of the Return Buffer or of the Outbox (R154, R159 to R161). -/
structure TransmitterLaw (transmitter : Transmitter) (buffer : List ReturnEntry) (outbox : List OutboxEntry) (line : LineInState) :
    Prop where
  busyReturn : ∀ bytes, transmitter = .busy .returnFrame bytes → ∃ rest, buffer = { complete := true, bytes := bytes } :: rest
  busyResponse : ∀ bytes, transmitter = .busy .response bytes →
    ∃ r rest, outbox = .ready r :: rest ∧ bytes = withFrameCheck r.bytes
  down : transmitter = .down ↔ line = .down

/-- The return law is its three parts. -/
theorem State.returnLaw_iff (s : State) :
    s.ReturnLaw ↔ BufferLaw s.merge.buffer s.lineOut.state ∧ OutboxLaw s.agent.outbox s.agent.execution ∧
      TransmitterLaw s.merge.transmitter s.merge.buffer s.agent.outbox s.lineIn.state :=
  ⟨fun h => ⟨⟨h.bufferBound, h.bufferTail, h.storing, h.sizes⟩, ⟨h.outboxBound, h.reserved.1, h.reserved.2⟩,
      ⟨h.busyReturn, h.busyResponse, h.transmitterDown⟩⟩,
    fun ⟨hb, ho, ht⟩ => ⟨hb.bound, hb.tail, hb.storing, hb.sizes, ho.bound, ⟨ho.free, ho.restarting⟩, ht.busyReturn, ht.busyResponse,
      ht.down⟩⟩

/-- What leaves the merge, the Outbox, the execution state and the two lines' states leaves the law. -/
theorem State.ReturnLaw.of_same {s t : State} (h : s.ReturnLaw) (hm : t.merge = s.merge) (hl : t.lineOut.state = s.lineOut.state)
    (ho : t.agent.outbox = s.agent.outbox) (hx : t.agent.execution = s.agent.execution)
    (hi : t.lineIn.state = .down ↔ s.lineIn.state = .down) : t.ReturnLaw := by
  obtain ⟨hb, ho', ht⟩ := s.returnLaw_iff.1 h
  rw [State.returnLaw_iff, hm, hl, ho, hx]
  exact ⟨hb, ho', ht.busyReturn, ht.busyResponse, ht.down.trans hi.symm⟩

/-! ## The place being filled (R152, R153) -/

section Place

variable {kept : List ReturnEntry} (hk : ∀ e ∈ kept, e.complete = true) (bytes : List Byte)

include hk

/-- Whole frames have no place being filled. -/
theorem filter_complete : kept.filter (fun e => e.complete) = kept := List.filter_eq_self.2 hk

/-- The place being filled is given up. -/
theorem filter_filling : (kept ++ [ReturnEntry.mk false bytes]).filter (fun e => e.complete) = kept := by
  rw [List.filter_append, filter_complete hk]
  simp

/-- A byte is written behind the others of the place being filled. -/
theorem map_filling (b : Byte) :
    (kept ++ [ReturnEntry.mk false bytes]).map
        (fun e : ReturnEntry => if e.complete then e else { e with bytes := e.bytes ++ [b] }) =
      kept ++ [{ complete := false, bytes := bytes ++ [b] }] := by
  rw [List.map_append, List.map_congr_left (g := id) fun e he => by simp [hk e he]]
  simp

/-- The place being filled becomes complete. -/
theorem map_complete :
    (kept ++ [ReturnEntry.mk false bytes]).map (fun e : ReturnEntry => { e with complete := true }) =
      kept ++ [{ complete := true, bytes := bytes }] := by
  rw [List.map_append, List.map_congr_left (g := id) fun e he => by rw [← hk e he]; rfl]
  simp

/-- The bytes stored are those of the place being filled. -/
theorem ReturnMerge.storedLength_filling {m : ReturnMerge} (h : m.buffer = kept ++ [{ complete := false, bytes := bytes }]) :
    m.storedLength = bytes.length := by
  have hnone : kept.find? (fun e => !e.complete) = none := List.find?_eq_none.2 fun e he => by simp [hk e he]
  simp [ReturnMerge.storedLength, h, List.find?_append, hnone]

end Place

/-- While a frame is stored, the tail of the Return Buffer is its place (R152). -/
theorem BufferLaw.filling {buffer : List ReturnEntry} (h : BufferLaw buffer .storing) :
    ∃ kept bytes, buffer = kept ++ [{ complete := false, bytes := bytes }] ∧ ∀ e ∈ kept, e.complete = true := by
  obtain ⟨e, he, hn⟩ := h.storing.1 rfl
  rcases List.eq_nil_or_concat buffer with hnil | ⟨kept, last, hlast⟩
  · simp [hnil] at he
  · have htail := h.tail
    rw [hlast, List.concat_eq_append] at he htail
    rw [List.dropLast_concat] at htail
    rcases List.mem_append.1 he with hin | hin
    · simp [htail e hin] at hn
    · rw [List.mem_singleton.1 hin] at hn
      obtain ⟨complete, bytes⟩ := last
      simp only at hn
      exact ⟨kept, bytes, by rw [hlast, List.concat_eq_append, hn], htail⟩

/-- Whole frames only, beside a receiver that stores none. -/
theorem BufferLaw.of_complete {buffer : List ReturnEntry} {state : LineOutState} (hb : buffer.length ≤ 2)
    (hk : ∀ e ∈ buffer, e.complete = true) (hz : ∀ e ∈ buffer, e.bytes.length ≤ 1028 ∧ (e.complete = true → 12 ≤ e.bytes.length))
    (hs : state ≠ .storing) : BufferLaw buffer state where
  bound := hb
  tail e he := hk e (List.mem_of_mem_dropLast he)
  storing := ⟨fun h => absurd h hs, fun ⟨e, he, hn⟩ => by simp [hk e he] at hn⟩
  sizes := hz

/-- Whole frames and a place being filled, beside a receiver that stores. -/
theorem BufferLaw.of_filling {kept : List ReturnEntry} {bytes : List Byte} (hb : kept.length < 2)
    (hk : ∀ e ∈ kept, e.complete = true) (hz : ∀ e ∈ kept, e.bytes.length ≤ 1028 ∧ (e.complete = true → 12 ≤ e.bytes.length))
    (hl : bytes.length ≤ 1028) : BufferLaw (kept ++ [{ complete := false, bytes := bytes }]) .storing where
  bound := by simp; omega
  tail := by simpa using hk
  storing := by simp
  sizes e he := by
    rcases List.mem_append.1 he with hin | hin
    · exact hz e hin
    · rw [List.mem_singleton.1 hin]
      exact ⟨hl, nofun⟩

/-- A receiver that stores no frame has whole frames beside it. -/
theorem BufferLaw.complete {buffer : List ReturnEntry} {state : LineOutState} (h : BufferLaw buffer state) (hs : state ≠ .storing) :
    ∀ e ∈ buffer, e.complete = true := by
  intro e he
  by_contra hn
  exact hs (h.storing.2 ⟨e, he, by simpa using hn⟩)

/-! ## The buffer at the rows of line-out receive -/

/-- The head of the buffer, when it is a whole frame, stays its head. -/
def KeepsHead (buffer buffer' : List ReturnEntry) : Prop :=
  ∀ bytes rest, buffer = { complete := true, bytes := bytes } :: rest → ∃ rest', buffer' = { complete := true, bytes := bytes } :: rest'

theorem KeepsHead.refl (buffer : List ReturnEntry) : KeepsHead buffer buffer := fun _ rest h => ⟨rest, h⟩

theorem KeepsHead.append (buffer more : List ReturnEntry) : KeepsHead buffer (buffer ++ more) :=
  fun _ rest h => ⟨rest ++ more, by rw [h, List.cons_append]⟩

/-- Only whole frames stand before the place being filled. -/
theorem KeepsHead.of_filling (kept : List ReturnEntry) (bytes : List Byte) (more : List ReturnEntry) :
    KeepsHead (kept ++ [{ complete := false, bytes := bytes }]) (kept ++ more) := by
  intro b rest h
  cases kept with
  | nil => simp at h
  | cons e kept =>
    rw [List.cons_append, List.cons.injEq] at h
    exact ⟨kept ++ more, by rw [List.cons_append, h.1]⟩

theorem TransmitterLaw.keepsHead {transmitter : Transmitter} {buffer buffer' : List ReturnEntry} {outbox : List OutboxEntry}
    {line : LineInState} (h : TransmitterLaw transmitter buffer outbox line) (hk : KeepsHead buffer buffer') :
    TransmitterLaw transmitter buffer' outbox line where
  busyReturn bytes hb := (h.busyReturn bytes hb).elim fun rest hr => hk bytes rest hr
  busyResponse := h.busyResponse
  down := h.down

/-- What the rows of line-out receive keep of the return law: the buffer's part, with its whole head. -/
structure BufferMove (s t : State) : Prop where
  law : BufferLaw t.merge.buffer t.lineOut.state
  head : KeepsHead s.merge.buffer t.merge.buffer
  transmitter : t.merge.transmitter = s.merge.transmitter
  agent : t.agent = s.agent
  lineIn : t.lineIn = s.lineIn

theorem BufferMove.returnLaw {s t : State} (h : BufferMove s t) (hs : s.ReturnLaw) : t.ReturnLaw := by
  obtain ⟨-, ho, ht⟩ := s.returnLaw_iff.1 hs
  rw [State.returnLaw_iff, h.transmitter, h.agent, h.lineIn]
  exact ⟨h.law, ho, ht.keepsHead h.head⟩

section Returns

variable {s : State}

/-- A receiver that stores no frame moves between its other states. -/
theorem BufferMove.of_state (h : BufferLaw s.merge.buffer s.lineOut.state) (hs : s.lineOut.state ≠ .storing) {t : State}
    (hm : t.merge = s.merge) (ha : t.agent = s.agent) (hi : t.lineIn = s.lineIn) (ht : t.lineOut.state ≠ .storing) : BufferMove s t where
  law := hm ▸ .of_complete h.bound (h.complete hs) h.sizes ht
  head := hm ▸ KeepsHead.refl _
  transmitter := by rw [hm]
  agent := ha
  lineIn := hi

/-- The frame being stored is given up; the receiver stores no frame after it (R153, R155). -/
theorem BufferMove.giveUp (h : BufferLaw s.merge.buffer s.lineOut.state) (hs : s.lineOut.state = .storing) {t : State}
    (hm : t.merge = { s.merge with buffer := s.merge.buffer.filter (fun e => e.complete) }) (ha : t.agent = s.agent)
    (hi : t.lineIn = s.lineIn) (ht : t.lineOut.state ≠ .storing) : BufferMove s t := by
  rw [hs] at h
  obtain ⟨kept, bytes, hb, hk⟩ := h.filling
  have hbound := h.bound
  have hsizes := h.sizes
  have hkept : t.merge.buffer = kept := by
    rw [hm]
    simp only [hb]
    exact filter_filling hk bytes
  rw [hb, List.length_append] at hbound
  refine ⟨?_, ?_, by rw [hm], ha, hi⟩
  · rw [hkept]
    exact .of_complete (by omega) hk (fun e he => hsizes e (by rw [hb]; exact List.mem_append_left _ he)) ht
  · rw [hkept, hb]
    simpa using KeepsHead.of_filling kept bytes []

/-- A place asked for beside whole frames (R152). -/
theorem BufferMove.takePlace (h : BufferLaw s.merge.buffer s.lineOut.state) (hs : s.lineOut.state ≠ .storing) :
    BufferMove s s.takePlace := by
  unfold State.takePlace
  split
  · exact ⟨.of_filling ‹_› (h.complete hs) h.sizes (by simp), .append _ _, rfl, rfl, rfl⟩
  · exact .of_state h hs rfl rfl rfl nofun

theorem BufferMove.trans {s t u : State} (h : BufferMove s t) (k : BufferMove t u) : BufferMove s u :=
  ⟨k.law, fun b rest hb => (h.head b rest hb).elim fun rest' hr => k.head b rest' hr, k.transmitter.trans h.transmitter,
    k.agent.trans h.agent, k.lineIn.trans h.lineIn⟩

/-- A byte of the frame being stored (R152). -/
theorem BufferMove.storeReturn (h : BufferLaw s.merge.buffer s.lineOut.state) (hs : s.lineOut.state = .storing)
    (hl : ¬ 1028 ≤ s.merge.storedLength) (b : Byte) : BufferMove s (s.storeReturn b) := by
  rw [hs] at h
  obtain ⟨kept, bytes, hb, hk⟩ := h.filling
  have hbound := h.bound
  have hsizes := h.sizes
  rw [ReturnMerge.storedLength_filling hk bytes hb] at hl
  rw [hb, List.length_append, List.length_singleton] at hbound
  have hnew : (s.storeReturn b).merge.buffer = kept ++ [{ complete := false, bytes := bytes ++ [b] }] := by
    simp only [State.storeReturn, State.setBuffer_merge, hb]
    exact map_filling hk bytes b
  refine ⟨?_, ?_, rfl, rfl, rfl⟩
  · rw [hnew]
    show BufferLaw _ s.lineOut.state
    rw [hs]
    exact .of_filling (by omega) hk (fun e he => hsizes e (by rw [hb]; exact List.mem_append_left _ he))
      (by simp only [List.length_append, List.length_singleton]; omega)
  · rw [hnew, hb]
    exact .of_filling kept bytes _

/-- The end of a stored frame of 12 bytes or more (R153). -/
theorem BufferMove.keepReturn (h : BufferLaw s.merge.buffer s.lineOut.state) (hs : s.lineOut.state = .storing)
    (hl : 12 ≤ s.merge.storedLength) : BufferMove s (s.keepReturn.setLineOutState .idle) := by
  rw [hs] at h
  obtain ⟨kept, bytes, hb, hk⟩ := h.filling
  have hbound := h.bound
  have hsizes := h.sizes
  rw [ReturnMerge.storedLength_filling hk bytes hb] at hl
  rw [hb] at hbound
  have hnew : (s.keepReturn.setLineOutState .idle).merge.buffer = kept ++ [{ complete := true, bytes := bytes }] := by
    simp only [State.keepReturn, State.setLineOutState_merge, State.setBuffer_merge, hb]
    exact map_complete hk bytes
  have hz : ∀ e ∈ kept ++ [ReturnEntry.mk true bytes], e.bytes.length ≤ 1028 ∧ (e.complete = true → 12 ≤ e.bytes.length) := by
    intro e he
    rcases List.mem_append.1 he with hin | hin
    · exact hsizes e (by rw [hb]; exact List.mem_append_left _ hin)
    · have hfill := hsizes ⟨false, bytes⟩ (by rw [hb]; simp)
      rw [List.mem_singleton.1 hin]
      exact ⟨hfill.1, fun _ => hl⟩
  refine ⟨?_, ?_, rfl, rfl, rfl⟩
  · rw [hnew]
    refine .of_complete (by simpa using hbound) (fun e he => ?_) hz nofun
    rcases List.mem_append.1 he with hin | hin
    · exact hk e hin
    · rw [List.mem_singleton.1 hin]
  · rw [hnew, hb]
    exact .of_filling kept bytes _

/-- The four reports of line-out receive (R152, R153). -/
theorem exec_returns {c : Instr} (hc : c = .returnStartDelimiter ∨ (∃ b, c = .returnByte b) ∨ c = .returnEndDelimiter ∨
    c = .returnErrorSymbol) {t : State} (h : exec c s = .next t) (hb : BufferLaw s.merge.buffer s.lineOut.state) :
    t = s ∨ BufferMove s t := by
  rcases hc with rfl | ⟨b, rfl⟩ | rfl | rfl
  · simp only [exec, execReturnStartDelimiter, Host.Outcome.next.injEq] at h
    subst h
    split
    · exact .inl rfl
    · rename_i hs
      exact .inr (.takePlace hb (by simp [hs]))
    · rename_i hs
      have hup : BufferMove s { s.giveUpReturn with lineOut := { s.lineOut with state := .idle } } := .giveUp hb hs rfl rfl rfl nofun
      have hplace := BufferMove.takePlace hup.law nofun
      have hsame : State.takePlace { s.giveUpReturn with lineOut := { s.lineOut with state := .idle } } = s.giveUpReturn.takePlace := by
        unfold State.takePlace
        split <;> rfl
      exact .inr (hup.trans (hsame ▸ hplace))
    · rename_i hs
      exact .inr (.takePlace hb (by simp [hs]))
  · simp only [exec, execReturnByte, Host.Outcome.next.injEq] at h
    subst h
    split
    · exact .inl rfl
    · exact .inl rfl
    · rename_i hs
      split
      · exact .inr (.giveUp hb hs rfl rfl rfl nofun)
      · exact .inr (.storeReturn hb hs ‹_› b)
    · exact .inl rfl
  · simp only [exec, execReturnEndDelimiter, Host.Outcome.next.injEq] at h
    subst h
    split
    · exact .inl rfl
    · exact .inl rfl
    · rename_i hs
      split
      · exact .inr (.keepReturn hb hs ‹_›)
      · exact .inr (.giveUp hb hs rfl rfl rfl nofun)
    · rename_i hs
      exact .inr (.of_state hb (by simp [hs]) rfl rfl rfl nofun)
  · simp only [exec, execReturnErrorSymbol, Host.Outcome.next.injEq] at h
    subst h
    split
    · exact .inl rfl
    · exact .inl rfl
    · rename_i hs
      exact .inr (.giveUp hb hs rfl rfl rfl nofun)
    · exact .inl rfl

end Returns

end Sys2Proof.Machine
end

section
/-! The Outbox and the line-in transmitter at every row, and so the return law at every step (O10). -/

namespace Sys2Proof.Machine

open Sys2Proof

/-! ## The Outbox (R134, R135, R147) -/

/-- A response joins the Outbox at its tail while no entry is reserved. -/
theorem OutboxLaw.ready {outbox : List OutboxEntry} (h : OutboxLaw outbox .free) (hroom : outbox.length < 2) (r : Response) :
    OutboxLaw (outbox ++ [.ready r]) .free where
  bound := by simp; omega
  free _ := by simp [h.free rfl]
  restarting hn := absurd rfl hn

/-- Restart Traffic reserves the tail of the Outbox (R146). -/
theorem OutboxLaw.reserve {outbox : List OutboxEntry} (h : OutboxLaw outbox .free) (hroom : outbox.length < 2) {x : Execution}
    (hx : x ≠ .free) : OutboxLaw (outbox ++ [.reserved]) x where
  bound := by simp; omega
  free hf := absurd hf hx
  restarting _ := ⟨outbox, rfl, h.free rfl⟩

/-- The marks of what has been taken of Restart Traffic bear on no entry (R146). -/
theorem OutboxLaw.of_restarting {outbox : List OutboxEntry} {x y : Execution} (h : OutboxLaw outbox x) (hx : x ≠ .free) (hy : y ≠ .free) :
    OutboxLaw outbox y :=
  ⟨h.bound, fun hf => absurd hf hy, fun _ => h.restarting hx⟩

/-- The reserved entry becomes the response to Restart Traffic (R147). -/
theorem OutboxLaw.complete {outbox : List OutboxEntry} {x : Execution} (h : OutboxLaw outbox x) (hx : x ≠ .free) (r : Response) :
    OutboxLaw (outbox.dropLast ++ [.ready r]) .free := by
  obtain ⟨before, hb, hn⟩ := h.restarting hx
  have hbound := h.bound
  rw [hb] at hbound ⊢
  rw [List.dropLast_concat]
  exact ⟨by simpa using hbound, fun _ => by simp [hn], fun hf => absurd rfl hf⟩

/-- The head of the Outbox leaves, when it is a ready response (R135). -/
theorem OutboxLaw.tail {outbox : List OutboxEntry} {x : Execution} (h : OutboxLaw outbox x) {r : Response} {rest : List OutboxEntry}
    (ho : outbox = .ready r :: rest) : OutboxLaw outbox.tail x where
  bound := by
    have hb := h.bound
    rw [List.length_tail]
    omega
  free hf hm := h.free hf (List.mem_of_mem_tail hm)
  restarting hn := by
    obtain ⟨before, hb, hnot⟩ := h.restarting hn
    cases before with
    | nil => simp [ho] at hb
    | cons first before => exact ⟨before, by rw [hb]; rfl, fun hm => hnot (List.mem_cons_of_mem _ hm)⟩

/-! ## The transmitter (R157 to R161) -/

section Transmitter

variable {transmitter : Transmitter} {buffer : List ReturnEntry} {outbox : List OutboxEntry} {line : LineInState}
  (h : TransmitterLaw transmitter buffer outbox line)

include h

/-- Entries that join the Outbox leave its head. -/
theorem TransmitterLaw.outbox_append (more : List OutboxEntry) : TransmitterLaw transmitter buffer (outbox ++ more) line where
  busyReturn := h.busyReturn
  busyResponse bytes hb := by
    obtain ⟨r, rest, ho, hbytes⟩ := h.busyResponse bytes hb
    exact ⟨r, rest ++ more, by rw [ho, List.cons_append], hbytes⟩
  down := h.down

/-- The response to Restart Traffic takes the place reserved at the tail, behind the head that is on the line. -/
theorem TransmitterLaw.outbox_complete {x : Execution} (ho : OutboxLaw outbox x) (hx : x ≠ .free) (r : Response) :
    TransmitterLaw transmitter buffer (outbox.dropLast ++ [.ready r]) line where
  busyReturn := h.busyReturn
  busyResponse bytes hb := by
    obtain ⟨r', rest, hhead, hbytes⟩ := h.busyResponse bytes hb
    obtain ⟨before, hbefore, -⟩ := ho.restarting hx
    rw [hbefore, List.dropLast_concat]
    cases before with
    | nil => simp [hbefore] at hhead
    | cons first before =>
      rw [hbefore, List.cons_append, List.cons.injEq] at hhead
      exact ⟨r', before ++ [.ready r], by rw [List.cons_append, hhead.1], hbytes⟩
  down := h.down

end Transmitter

/-- A transmitter that sends nothing. -/
theorem TransmitterLaw.of_idle {transmitter : Transmitter} {buffer : List ReturnEntry} {outbox : List OutboxEntry} {line : LineInState}
    (ht : ∀ kind bytes, transmitter ≠ .busy kind bytes) (hd : transmitter = .down ↔ line = .down) :
    TransmitterLaw transmitter buffer outbox line :=
  ⟨fun bytes hb => absurd hb (ht _ bytes), fun bytes hb => absurd hb (ht _ bytes), hd⟩

/-- The return frame on the line leaves the Return Buffer, whose tail alone can be incomplete (R154, R159). -/
theorem BufferLaw.tail_of_head {buffer : List ReturnEntry} {state : LineOutState} (h : BufferLaw buffer state) {bytes : List Byte}
    {rest : List ReturnEntry} (hb : buffer = { complete := true, bytes := bytes } :: rest) : BufferLaw buffer.tail state where
  bound := by
    have hbound := h.bound
    rw [List.length_tail]
    omega
  tail e he := by
    rw [← List.tail_dropLast] at he
    exact h.tail e (List.mem_of_mem_tail he)
  storing := by
    rw [h.storing, hb]
    simp
  sizes e he := h.sizes e (List.mem_of_mem_tail he)

/-- The frame on line-in transmit leaves its place, and the transmitter is free or Down (R159, R160). -/
theorem State.ReturnLaw.leaveTransmitter {s t : State} (h : s.ReturnLaw) {kind : SentKind} {bytes : List Byte}
    (hk : s.merge.transmitter = .busy kind bytes)
    (hb : t.merge.buffer = (s.leaveTransmitter kind).merge.buffer) (ho : t.agent.outbox = (s.leaveTransmitter kind).agent.outbox)
    (hx : t.agent.execution = s.agent.execution) (hl : t.lineOut.state = s.lineOut.state)
    (ht : ∀ kind bytes, t.merge.transmitter ≠ .busy kind bytes) (hd : t.merge.transmitter = .down ↔ t.lineIn.state = .down) :
    t.ReturnLaw := by
  obtain ⟨hbuffer, houtbox, htransmitter⟩ := s.returnLaw_iff.1 h
  rw [State.returnLaw_iff, hb, ho, hx, hl]
  refine ⟨?_, ?_, .of_idle ht hd⟩
  · cases kind with
    | returnFrame => exact (htransmitter.busyReturn bytes hk).elim fun rest hr => hbuffer.tail_of_head hr
    | response => exact hbuffer
    | report => exact hbuffer
  · cases kind with
    | returnFrame => exact houtbox
    | response =>
      obtain ⟨r, rest, hr, -⟩ := htransmitter.busyResponse bytes hk
      exact houtbox.tail hr
    | report => exact houtbox

/-- Line-in goes Down: what it transmitted is lost and leaves its place (R160). -/
theorem State.ReturnLaw.mergeDown {s u : State} (h : s.ReturnLaw) (hm : u.merge = s.merge) (hl : u.lineOut = s.lineOut)
    (ho : u.agent.outbox = s.agent.outbox) (hx : u.agent.execution = s.agent.execution) (hi : u.lineIn.state = .down) :
    u.mergeDown.ReturnLaw := by
  unfold State.mergeDown
  split
  · rename_i bytes hbusy
    exact h.leaveTransmitter (hm ▸ hbusy) (by simp [State.leaveTransmitter, hm]) (by simp [State.leaveTransmitter, ho]) hx (by simp [State.leaveTransmitter, hl])
      nofun (by simp [State.leaveTransmitter, hi])
  · rename_i kind bytes _ hbusy
    exact h.leaveTransmitter (hm ▸ hbusy) (by cases kind <;> simp [State.leaveTransmitter, hm]) (by cases kind <;> simp [State.leaveTransmitter, ho])
      (by cases kind <;> exact hx) (by cases kind <;> simp [State.leaveTransmitter, hl]) nofun (by cases kind <;> simp [State.leaveTransmitter, hi])
  · rename_i hidle
    obtain ⟨hb, hout, -⟩ := s.returnLaw_iff.1 h
    rw [State.returnLaw_iff]
    simp only [State.setTransmitter_merge, State.setTransmitter_lineOut, State.setTransmitter_agent, State.setTransmitter_lineIn, hm, hl,
      ho, hx]
    exact ⟨hb, hout, .of_idle nofun (by simp [hi])⟩

/-- A merge choice sends the head of the Return Buffer or of the Outbox, or a report (R156 to R158). -/
theorem State.ReturnLaw.mergeChoice {s : State} (h : s.ReturnLaw) (hup : s.lineIn.state ≠ .down) : s.mergeChoice.ReturnLaw := by
  obtain ⟨hb, ho, -⟩ := s.returnLaw_iff.1 h
  have hagent : s.serveAgent.ReturnLaw := by
    unfold State.serveAgent
    split
    · rename_i r hr
      have hhead : ∃ rest, s.agent.outbox = .ready r :: rest := by
        unfold ManagementAgent.readyHead at hr
        split at hr
        · rename_i r' rest hrest
          rw [Option.some.injEq] at hr
          exact ⟨rest, hr ▸ hrest⟩
        · cases hr
      obtain ⟨rest, hrest⟩ := hhead
      rw [State.returnLaw_iff]
      exact ⟨hb, ho, nofun, fun bytes hbytes => ⟨r, rest, hrest, by simpa using hbytes.symm⟩, by simpa using hup⟩
    · split
      · rw [State.returnLaw_iff]
        exact ⟨hb, ho, nofun, nofun, by simpa using hup⟩
      · exact h
  unfold State.mergeChoice
  split
  · rename_i bytes hoffered
    have hhead : ∃ rest, s.merge.buffer = { complete := true, bytes := bytes } :: rest := by
      unfold ReturnMerge.offered at hoffered
      repeat' split at hoffered
      · rename_i e rest hrest hcomplete
        rw [Option.some.injEq] at hoffered
        exact ⟨rest, by rw [hrest, ← hoffered, ← hcomplete]⟩
      · cases hoffered
      · cases hoffered
    split
    · exact hagent
    · rw [State.returnLaw_iff]
      exact ⟨hb, ho, fun b hbytes => by
        have heq : bytes = b := by simpa using hbytes
        exact heq ▸ hhead, nofun, by simpa using hup⟩
  · exact hagent

/-! ## Every row -/

theorem State.powerUp_returnLaw (straps : BitVec 4) : (State.powerUp straps).ReturnLaw := by
  rw [State.returnLaw_iff]
  exact ⟨.of_complete (Nat.zero_le 2) (fun _ h => absurd h List.not_mem_nil) (fun _ h => absurd h List.not_mem_nil) nofun,
    ⟨Nat.zero_le 2, fun _ => List.not_mem_nil, fun h => absurd rfl h⟩, .of_idle nofun (by simp [State.powerUp, LineInReceiver.empty])⟩

/-- The frame in reception at Restart Traffic: its line stays Up (R106). -/
theorem State.restartLineIn_state {s : State} (h : s.ReceptionLaw) : s.restartLineIn.lineIn.state = .down ↔ s.lineIn.state = .down := by
  unfold State.restartLineIn
  split
  · rename_i label f cls place hc
    have hup : s.lineIn.state ≠ .down := fun hd => by
      have := h.classified.1 (congrArg Option.isSome hc)
      simp [hd] at this
    repeat' split
    · exact Iff.rfl
    · exact Iff.rfl
    · exact Iff.rfl
    · exact ⟨nofun, fun hd => absurd hd hup⟩
  · exact Iff.rfl

/-- The agent's answer to the command at the head of the Inbox joins the Outbox (R134, R135). -/
theorem State.ReturnLaw.answered {s t : State} (h : s.ReturnLaw) {e : InboxEntry} (hm : s.MayBegin e) {r : Response}
    (hmerge : t.merge = s.merge) (hl : t.lineOut = s.lineOut) (ho : t.agent.outbox = s.agent.outbox ++ [.ready r])
    (hx : t.agent.execution = s.agent.execution) (hi : t.lineIn = s.lineIn) : t.ReturnLaw := by
  obtain ⟨hb, houtbox, ht⟩ := s.returnLaw_iff.1 h
  rw [State.returnLaw_iff, hmerge, hl, ho, hx, hi, hm.free]
  rw [hm.free] at houtbox
  exact ⟨hb, houtbox.ready hm.room r, ht.outbox_append _⟩

/-- The marks of Restart Traffic: the part is Restarting before and after (R146). -/
theorem State.ReturnLaw.of_restarting {s t : State} (h : s.ReturnLaw) (hm : t.merge = s.merge) (hl : t.lineOut = s.lineOut)
    (ho : t.agent.outbox = s.agent.outbox) (hs : s.agent.execution ≠ .free) (hx : t.agent.execution ≠ .free)
    (hi : t.lineIn.state = .down ↔ s.lineIn.state = .down) : t.ReturnLaw := by
  obtain ⟨hb, houtbox, ht⟩ := s.returnLaw_iff.1 h
  rw [State.returnLaw_iff, hm, hl, ho]
  exact ⟨hb, houtbox.of_restarting hs hx, ht.busyReturn, ht.busyResponse, ht.down.trans hi.symm⟩

/-- One command keeps the laws of the return path. -/
theorem exec_returnLaw {c : Instr} {s t : State} (h : exec c s = .next t) (hr : s.ReceptionLaw) (hs : s.ReturnLaw) : t.ReturnLaw := by
  obtain ⟨hb, ho, ht⟩ := s.returnLaw_iff.1 hs
  have same {u : State} (hu : t = u) (hm : u.merge = s.merge) (hl : u.lineOut.state = s.lineOut.state) (ha : u.agent = s.agent)
      (hi : u.lineIn = s.lineIn) : t.ReturnLaw := by
    rw [hu]
    exact hs.of_same hm hl (by rw [ha]) (by rw [ha]) (by rw [hi])
  have reception (k : ReceptionOnly s t) (hi : t.lineIn.state = .down ↔ s.lineIn.state = .down) : t.ReturnLaw :=
    hs.of_same k.merge (by rw [k.lineOut]) k.outbox k.execution hi
  have returns (k : t = s ∨ BufferMove s t) : t.ReturnLaw := by
    rcases k with k | k
    · exact same k rfl rfl rfl rfl
    · exact k.returnLaw hs
  induction c using Instr.byRows with
  | answered c hc =>
    obtain ⟨-, hi, -, -, -, -, -, hl, hm, -, hx, ⟨-, hout⟩ | ⟨e, r, hmay, -, hout⟩⟩ := answeredRow_frame c hc s t h
    · exact hs.of_same hm (by rw [hl]) hout hx (by rw [hi])
    · exact hs.answered hmay hm hl hout hx hi
  | powerUpReset straps =>
    rw [exec_powerUpReset s t h]
    exact (State.powerUp_returnLaw straps).of_same rfl rfl rfl rfl Iff.rfl
  | lineInStartDelimiter => exact (frame_reception s t _ (by simp) h).elim reception
  | lineInByte b => exact (frame_reception s t (.lineInByte b) (by simp) h).elim reception
  | lineInEndDelimiter => exact (frame_reception s t _ (by simp) h).elim reception
  | lineInErrorSymbol => exact (frame_reception s t _ (by simp) h).elim reception
  | lineInComesUp =>
    simp only [exec, execLineInComesUp, Host.Outcome.next.injEq] at h
    subst h
    split
    · exact hs
    · rw [State.returnLaw_iff]
      exact ⟨hb, ho, .of_idle nofun ⟨nofun, nofun⟩⟩
  | lineInGoesDown =>
    simp only [exec, execLineInGoesDown, Host.Outcome.next.injEq] at h
    subst h
    split
    · have hlost := s.loseFrame_frame
      generalize s.loseFrame = u at hlost ⊢
      exact hs.mergeDown (by rw [hlost]) (by rw [hlost]) (by rw [hlost]) (by rw [hlost]) (by rw [hlost]; rfl)
    · exact hs
  | restartAtLineIn =>
    simp only [exec, execRestartAtLineInReceiver, Host.Outcome.next.injEq] at h
    subst h
    split
    · rename_i tr p e hx
      have hdown := State.restartLineIn_state (s := { s with agent := { s.agent with execution := .restarting tr true p e } })
        (hr.of_same rfl rfl rfl le_rfl)
      rw [State.restartLineIn_frame]
      exact hs.of_restarting rfl rfl rfl (by simp [hx]) nofun hdown
    · exact hs
  | holdSymbol arg =>
    have hstate : t.lineOut.state = s.lineOut.state := by
      simp only [exec, execHoldSymbol, State.holdChange, Host.Outcome.next.injEq] at h
      subst h
      repeat' split
      all_goals rfl
    exact same (frame_holdSymbol s t arg h) rfl hstate rfl rfl
  | receivedSymbol symbol arg =>
    simp only [exec, execReceivedAbortOrStreamReset, Host.Outcome.next.injEq] at h
    exact same h.symm rfl rfl rfl rfl
  | returnStartDelimiter => exact returns (exec_returns (by simp) h hb)
  | returnByte b => exact returns (exec_returns (c := .returnByte b) (by simp) h hb)
  | returnEndDelimiter => exact returns (exec_returns (by simp) h hb)
  | returnErrorSymbol => exact returns (exec_returns (by simp) h hb)
  | lineOutComesUp =>
    simp only [exec, execLineOutComesUp, Host.Outcome.next.injEq] at h
    subst h
    split
    · exact hs
    · rename_i hup
      have hdown : s.lineOut.state = .down := by simpa [LineOutReceiver.up] using hup
      refine BufferMove.returnLaw ?_ hs
      exact BufferMove.of_state hb (by simp [hdown]) rfl rfl rfl nofun
  | lineOutGoesDown =>
    simp only [exec, execLineOutGoesDown, Host.Outcome.next.injEq] at h
    subst h
    split
    · unfold State.loseReturn
      split
      · rename_i hstoring
        refine BufferMove.returnLaw ?_ hs
        exact BufferMove.giveUp hb hstoring rfl rfl rfl nofun
      · rename_i hstate
        refine BufferMove.returnLaw ?_ hs
        exact BufferMove.of_state hb hstate rfl rfl rfl nofun
    · exact hs
  | segmentCompletion => exact same (frame_segmentCompletion s t h) rfl rfl rfl rfl
  | controlSymbolCompletion => exact same (frame_controlSymbolCompletion s t h) rfl rfl rfl rfl
  | tickExpiry => exact same (frame_tickExpiry s t h) rfl rfl rfl rfl
  | stallTimerExpiry l => exact same (frame_stallTimerExpiry s t l h) rfl rfl rfl rfl
  | contextChange c f hf => exact same (frame_contextChange s t c f hf h) rfl rfl rfl rfl
  | admissionRequest => exact same (frame_admissionRequest s t h) rfl rfl rfl rfl
  | returnMergeChoice =>
    simp only [exec, execReturnMergeChoice, Host.Outcome.next.injEq] at h
    subst h
    split
    · rename_i hup
      exact hs.mergeChoice (by simp [LineInReceiver.up] at hup; exact hup.1)
    · exact hs
  | transmissionCompletion =>
    simp only [exec, execLineInTransmissionCompletion, Host.Outcome.next.injEq] at h
    subst h
    split
    · rename_i kind bytes hbusy
      have hup : s.lineIn.state ≠ .down := fun hd => by
        rw [← ht.down, hbusy] at hd
        cases hd
      have hline : (s.leaveTransmitter kind).lineIn = s.lineIn := by cases kind <;> rfl
      have hout : (s.leaveTransmitter kind).lineOut = s.lineOut := by cases kind <;> rfl
      have hexec : (s.leaveTransmitter kind).agent.execution = s.agent.execution := by cases kind <;> rfl
      exact hs.leaveTransmitter hbusy rfl rfl hexec (by rw [State.setTransmitter_lineOut, hout]) nofun
        ⟨nofun, fun hd => absurd (by simpa [hline] using hd) hup⟩
    · exact hs
  | jobItemCompletion => exact same (frame_jobItemCompletion s t h) rfl rfl rfl rfl
  | restartTraffic =>
    simp only [exec, execRestartTraffic, Host.Outcome.next.injEq] at h
    have hbegun := s.beginCommand_cases (InboxEntry.isCommand 0x12) [0] runRestartTraffic
    rw [h] at hbegun
    cases hbegun with
    | nothing => exact hs
    | repeated e r hm => exact hs.answered (r := r) hm rfl rfl (by simp [State.placeResponse, State.takeEntry]) rfl rfl
    | malformed e hm => exact hs.answered hm rfl rfl rfl rfl rfl
    | answered e st results hm hr => cases hr
    | unanswered e hm hr =>
      rw [State.returnLaw_iff]
      rw [hm.free] at ho
      exact ⟨hb, ho.reserve hm.room nofun, ht.outbox_append _⟩
  | restartAtPacing =>
    simp only [exec, execRestartAtPacingUnit, Host.Outcome.next.injEq] at h
    subst h
    split
    · rename_i tr r e hx
      have k := (State.flushQueues_untouched { s with agent := { s.agent with execution := .restarting tr r true e } }
        (fun _ => true)).trans (State.clearContexts_untouched _ (fun _ => true))
      exact hs.of_restarting k.merge k.lineOut k.outbox (by simp [hx]) (by rw [k.execution]; nofun) (by rw [k.lineIn])
    · exact hs
  | restartAtEgress =>
    simp only [exec, execRestartAtEgressScheduler, Host.Outcome.next.injEq] at h
    subst h
    split
    · rename_i tr r p hx
      have k := State.restartEgress_only { s with agent := { s.agent with execution := .restarting tr r p true } }
      exact hs.of_restarting k.merge k.lineOut (by rw [k.agent]) (by simp [hx]) (by rw [k.agent]; nofun) (by rw [k.lineIn])
    · exact hs
  | restartCompletion =>
    simp only [exec, execRestartTrafficCompletion, Host.Outcome.next.injEq] at h
    subst h
    split
    · rename_i hx
      rw [State.returnLaw_iff]
      exact ⟨hb, ho.complete (by simp [hx]) _, ht.outbox_complete ho (by simp [hx]) _⟩
    · exact hs

/-- Settles O10: the buffer's part goes along line-out receive, the Outbox's along the agent, and the transmitter sends a head of one. -/
theorem stepKeepsReturnLaw : Obligations.StepKeepsReturnLaw := fun _ _ hr hs h =>
  (step_keeps (P := fun u => u.ReceptionLaw ∧ u.ReturnLaw)
    (fun _ _ hs => ⟨hs.1.of_same rfl rfl rfl le_rfl, hs.2.of_same rfl rfl rfl rfl Iff.rfl⟩)
    (fun _ _ _ h hs => ⟨exec_receptionLaw h hs.1, exec_returnLaw h hs.1 hs.2⟩) h ⟨hr, hs⟩).2

end Sys2Proof.Machine
end

section
/-! The laws of the plan: what every write of a bank, every job and every change of settings keeps (R109 to R125). -/

namespace Sys2Proof.Machine

open Sys2Proof

/-! ## The two halves of the law -/

/-- The laws of the Plan Store and the settings: the first half of the plan law, of the two parts it speaks of. -/
structure PlanCore (p : PlanStore) (g : Settings) : Prop where
  sorted : ∀ b, mapSorted (p.bank b).map = true
  bounded : ∀ b, (p.bank b).map.length ≤ 512
  valid : ∀ b f, ((p.bank b).descriptor f).record.badField = none
  activeReady : p.activeBank.ready = true
  readyPasses : ∀ b, (p.bank b).ready = true → (p.bank b).passes g
  jobSound : ∀ j, p.job = some j → j.bank ≠ p.active ∧ (p.bank j.bank).ready = false ∧ j.sound (p.bank j.bank) p.activeBank g

/-- The JobDone interlock: beside a running job no JobDone record is pending (R120). -/
def NoJobDone (q : List ReportRecord) : Prop := hasReport q .jobDone = false

/-- A pending JobDone record has one occurrence (R125). -/
def JobDoneOnce (q : List ReportRecord) : Prop := ∀ r ∈ q, r.kind = .jobDone → r.occurrences = 1

theorem State.planLaw_iff (s : State) :
    s.PlanLaw ↔ PlanCore s.plan s.settings ∧ (s.plan.job ≠ none → NoJobDone s.reports) ∧ JobDoneOnce s.reports :=
  ⟨fun h => ⟨⟨h.sorted, h.bounded, h.valid, h.activeReady, h.readyPasses, h.jobSound⟩, h.interlock, h.jobDoneOnce⟩,
    fun ⟨h, hi, ho⟩ => ⟨h.sorted, h.bounded, h.valid, h.activeReady, h.readyPasses, h.jobSound, hi, ho⟩⟩

/-! ## The Report Queue beside the jobs -/

theorem noJobDone_kept : ReportsKept NoJobDone where
  empty := rfl
  posted q d tick hd h := by
    rw [NoJobDone, Bool.eq_false_iff, ne_eq, hasReport_iff] at h ⊢
    rintro ⟨r, hr, hk⟩
    have hmem : ReportKind.jobDone ∈ (postInto q d tick).map ReportRecord.kind := hk ▸ List.mem_map_of_mem hr
    rw [postInto_kinds, List.mem_append] at hmem
    rcases hmem with hmem | hmem
    · obtain ⟨x, hx, hxk⟩ := List.mem_map.1 hmem
      exact h ⟨x, hx, hxk⟩
    · split at hmem
      · cases hmem
      · exact hd (List.mem_singleton.1 hmem).symm
  sent q h := by
    rw [NoJobDone, Bool.eq_false_iff, ne_eq, hasReport_iff] at h ⊢
    exact fun ⟨r, hr, hk⟩ => h ⟨r, List.mem_of_mem_tail hr, hk⟩

theorem jobDoneOnce_kept : ReportsKept JobDoneOnce where
  empty := nofun
  posted q d tick hd h := by
    intro r hr hk
    unfold postInto at hr
    split at hr
    · obtain ⟨x, hx, rfl⟩ := List.mem_map.1 hr
      split at hk
      · rename_i hkind
        rw [ReportRecord.gather_kind, eq_of_beq hkind] at hk
        exact absurd hk hd
      · rename_i hkind
        rw [if_neg hkind]
        exact h x hx hk
    · rcases List.mem_append.1 hr with hold | hnew
      · exact h r hold hk
      · rw [List.mem_singleton.1 hnew] at hk
        exact absurd hk hd
  sent q h r hr hk := h r (List.mem_of_mem_tail hr) hk

/-- The JobDone record of the job that ends is a new one (R120, R125). -/
theorem JobDoneOnce.post {s : State} (ho : JobDoneOnce s.reports) (hn : NoJobDone s.reports) (o : JobOutcome) :
    JobDoneOnce (s.post (.jobDone o)).reports := by
  rw [State.post_reports]
  split
  · rw [postInto_open _ _ _ fun r hr hk => by
      rw [NoJobDone, Bool.eq_false_iff, ne_eq, hasReport_iff] at hn
      exact hn ⟨r, hr, hk⟩]
    intro r hr hk
    rcases List.mem_append.1 hr with hold | hnew
    · exact ho r hold hk
    · rw [List.mem_singleton.1 hnew]
  · exact ho

/-! ## Writes of a bank (R113 to R117) -/

/-- A bank's contents are well formed: an ordered and bounded map, and valid descriptors (R109, R110). -/
structure BankContents.Sound (c : BankContents) : Prop where
  sorted : mapSorted c.map = true
  bounded : c.map.length ≤ 512
  valid : ∀ f, (c.descriptor f).record.badField = none

theorem PlanCore.bankSound {p : PlanStore} {g : Settings} (h : PlanCore p g) (b : Bank) : (p.bank b).Sound :=
  ⟨h.sorted b, h.bounded b, h.valid b⟩

/-- A change of a bank other than the active one keeps every law but that of the job, when its mark keeps what it says. -/
theorem PlanCore.setBank {p : PlanStore} {g : Settings} (h : PlanCore p g) {b : Bank} (hb : b ≠ p.active) {c : BankContents}
    (hc : c.Sound) (hready : c.ready = true → c.passes g) {job : Option Job}
    (hjob : ∀ j, job = some j → j.bank = b ∧ c.ready = false ∧ j.sound c p.activeBank g) :
    PlanCore { p.setBank b c with job := job } g := by
  have hself : PlanStore.bank { p.setBank b c with job := job } b = c := by cases b <;> rfl
  have hother (x : Bank) (hx : x ≠ b) : PlanStore.bank { p.setBank b c with job := job } x = p.bank x := by
    have := p.bank_setBank_ne x b c hx
    cases x <;> exact this
  have hactive : PlanStore.activeBank { p.setBank b c with job := job } = p.activeBank := by
    have hact : PlanStore.active { p.setBank b c with job := job } = p.active := p.setBank_active b c
    rw [PlanStore.activeBank, hact, hother _ (Ne.symm hb), PlanStore.activeBank]
  refine ⟨fun x => ?_, fun x => ?_, fun x f => ?_, by rw [hactive]; exact h.activeReady, fun x hx => ?_, fun j hj => ?_⟩
  · by_cases hxb : x = b
    · rw [hxb, hself]
      exact hc.sorted
    · rw [hother x hxb]
      exact h.sorted x
  · by_cases hxb : x = b
    · rw [hxb, hself]
      exact hc.bounded
    · rw [hother x hxb]
      exact h.bounded x
  · by_cases hxb : x = b
    · rw [hxb, hself]
      exact hc.valid f
    · rw [hother x hxb]
      exact h.valid x f
  · by_cases hxb : x = b
    · rw [hxb, hself] at hx ⊢
      exact hready hx
    · rw [hother x hxb] at hx ⊢
      exact h.readyPasses x hx
  · obtain ⟨hjb, hr, hs⟩ := hjob j hj
    have hact : PlanStore.active { p.setBank b c with job := job } = p.active := p.setBank_active b c
    rw [hact, hjb, hself, hactive]
    exact ⟨hb, hr, hs⟩

/-- A change of the Job slot alone. -/
theorem PlanCore.setJob {p : PlanStore} {g : Settings} (h : PlanCore p g) {job : Option Job}
    (hjob : ∀ j, job = some j → j.bank ≠ p.active ∧ (p.bank j.bank).ready = false ∧ j.sound (p.bank j.bank) p.activeBank g) :
    PlanCore { p with job := job } g :=
  ⟨h.sorted, h.bounded, h.valid, h.activeReady, h.readyPasses, hjob⟩

/-- A label that the map holds is replaced in its place: the map keeps its length (R114). -/
theorem mapInsert_length_held {m : List MapEntry} {l : Word16} (hs : mapSorted m = true) (h : (mapLookup m l).isSome = true) (f : Flow) :
    (mapInsert m l f).length = m.length := by
  obtain ⟨⟨label, old⟩, he, rfl⟩ := (mapLookup_isSome m l).1 h
  obtain ⟨before, after, rfl⟩ := List.append_of_mem he
  rw [mapInsert_replace before after label old f hs]
  simp

/-- A write of a map entry that is not refused with Full (R114). -/
theorem BankContents.Sound.mapInsert {c : BankContents} (h : c.Sound) (l : Word16) (f : Flow)
    (hfull : ¬ ((mapLookup c.map l).isNone && decide (512 ≤ c.map.length)) = true) :
    BankContents.Sound { c with map := mapInsert c.map l f, ready := false } where
  sorted := mapSorted_mapInsert c.map l f h.sorted
  bounded := by
    have hb := h.bounded
    simp only
    by_cases hheld : (mapLookup c.map l).isSome = true
    · rw [mapInsert_length_held h.sorted hheld]
      exact hb
    · have hnew : (mapLookup c.map l).isNone = true := by simpa using hheld
      simp only [hnew, Bool.true_and, decide_eq_true_eq] at hfull
      rcases mapInsert_length c.map l f with hl | hl <;> omega
  valid := h.valid

theorem BankContents.Sound.mapRemove {c : BankContents} (h : c.Sound) (l : Word16) :
    BankContents.Sound { c with map := mapRemove c.map l, ready := false } where
  sorted := mapSorted_mapRemove c.map l h.sorted
  bounded := (List.length_filter_le ..).trans h.bounded
  valid := h.valid

/-- A valid descriptor written over one (R110, R116). -/
theorem BankContents.Sound.setFlow {c : BankContents} (h : c.Sound) (f : Flow) {d : Descriptor} (hd : d.record.badField = none) :
    BankContents.Sound { c with flows := c.flows.set f d } where
  sorted := h.sorted
  bounded := h.bounded
  valid x := by
    have hv := h.valid x
    simp only [BankContents.descriptor, Fin.getElem_fin] at hv ⊢
    rw [Vector.getElem_set]
    split
    · exact hd
    · exact hv

/-- The Ready mark bears on no entry and no descriptor. -/
theorem BankContents.Sound.of_ready {c : BankContents} (h : c.Sound) (r : Bool) : BankContents.Sound { c with ready := r } :=
  ⟨h.sorted, h.bounded, h.valid⟩

end Sys2Proof.Machine
end

section
/-! The plan law at the owning blocks and at the items of a job. -/

namespace Sys2Proof.Machine

open Sys2Proof

/-! ## Shapes of the changes -/

/-- What leaves the plan, the settings and the Report Queue leaves the plan law. -/
theorem State.PlanLaw.of_same {s t : State} (h : s.PlanLaw) (hp : t.plan = s.plan) (hg : t.agent.settings = s.agent.settings)
    (hr : t.reports = s.reports) : t.PlanLaw := by
  rw [State.planLaw_iff] at h ⊢
  rw [State.settings, hp, hg, hr]
  exact h

/-- A change of the plan alone that leaves the Job slot, or empties it. -/
theorem State.PlanLaw.of_core {s t : State} (h : s.PlanLaw) (hcore : PlanCore t.plan t.settings) (hr : t.reports = s.reports)
    (hj : t.plan.job ≠ none → s.plan.job ≠ none) : t.PlanLaw := by
  rw [State.planLaw_iff] at h ⊢
  rw [hr]
  exact ⟨hcore, fun hn => h.2.1 (hj hn), h.2.2⟩

/-- A job ends: the slot is empty, and JobDone is posted beside no pending JobDone record (R125). -/
theorem State.PlanLaw.endJob {s u : State} (h : s.PlanLaw) (hj : s.plan.job ≠ none)
    (hcore : PlanCore { u.plan with job := none } u.settings) (hr : u.reports = s.reports) (j : Job) (r : JobResult) :
    (u.endJob j r).PlanLaw := by
  rw [State.planLaw_iff] at h
  rw [State.planLaw_iff]
  exact ⟨hcore, fun hn => absurd rfl hn,
    JobDoneOnce.post (s := { u with plan := { u.plan with job := none } }) (hr ▸ h.2.2) (hr ▸ h.2.1 hj) _⟩

theorem PlanStore.setBank_eta (p : PlanStore) (b : Bank) (c : BankContents) :
    ({ p.setBank b c with job := p.job } : PlanStore) = p.setBank b c := by
  cases b <;> rfl

/-- A standby bank written with no job running: its Ready mark is clear (R113). -/
theorem State.PlanLaw.writeBank {s : State} (h : s.PlanLaw) {b : Bank} (hb : b ≠ s.plan.active) (hj : s.plan.job = none)
    {c : BankContents} (hc : BankContents.Sound { c with ready := false }) : (s.writeBank b c).PlanLaw := by
  obtain ⟨hcore, -, -⟩ := s.planLaw_iff.1 h
  refine h.of_core ?_ rfl fun hn => ?_
  · have hset := hcore.setBank (job := s.plan.job) hb hc nofun fun j hjob => by simp [hj] at hjob
    rw [PlanStore.setBank_eta] at hset
    exact hset
  · have hjob : (s.writeBank b c).plan.job = s.plan.job := s.plan.setBank_job b _
    rwa [hjob] at hn

/-! ## Jobs: the start (R120) -/

/-- A job just started has done no item (R120, R121). -/
theorem Job.sound_start (k : JobKind) (b : Bank) (transaction : Word16) (target source : BankContents) (g : Settings)
    (hm : k = .copy → target.map = []) :
    let items := match k with
      | .copy => source.map
      | .check => target.map
    let p := phaseAfter items.length 0
    Job.sound { kind := k, bank := b, transaction := transaction, phase := p.1, progress := p.2 } target source g := by
  cases k with
  | copy =>
    rcases hlen : source.map with _ | ⟨e, rest⟩
    · simp [phaseAfter, Job.sound, hm rfl, hlen]
    · simp [phaseAfter, Job.sound, hm rfl, hlen]
  | check =>
    rcases hlen : target.map with _ | ⟨e, rest⟩
    · simp [phaseAfter, Job.sound, hlen]
    · simp [phaseAfter, Job.sound, hlen]

theorem State.PlanLaw.startJob {s : State} (h : s.PlanLaw) {b : Bank} (hb : b ≠ s.plan.active) (hn : NoJobDone s.reports) (k : JobKind)
    (transaction : Word16) : (s.startJob k b transaction).PlanLaw := by
  obtain ⟨hcore, -, ho⟩ := s.planLaw_iff.1 h
  rw [State.planLaw_iff]
  refine ⟨?_, fun _ => hn, ho⟩
  have hs := hcore.bankSound b
  cases k with
  | copy =>
    refine hcore.setBank (c := { s.plan.bank b with map := [], ready := false }) hb ⟨rfl, Nat.zero_le _, hs.valid⟩ nofun ?_
    rintro j hj
    obtain rfl := Option.some.inj hj
    exact ⟨rfl, rfl, Job.sound_start .copy b transaction _ s.plan.activeBank s.settings fun _ => rfl⟩
  | check =>
    refine hcore.setBank (c := { s.plan.bank b with ready := false }) hb (hs.of_ready false) nofun ?_
    rintro j hj
    obtain rfl := Option.some.inj hj
    exact ⟨rfl, rfl, Job.sound_start .check b transaction { s.plan.bank b with ready := false } s.plan.activeBank s.settings nofun⟩

/-! ## Jobs: the items (R121 to R123) -/

/-- Map items taken in turn: those before an item, and the item. -/
theorem take_succ_of_getElem? {α : Type} {l : List α} {n : Nat} {x : α} (h : l[n]? = some x) : l.take (n + 1) = l.take n ++ [x] := by
  obtain ⟨hlt, hx⟩ := List.getElem?_eq_some_iff.1 h
  rw [List.take_succ_eq_append_getElem hlt, hx]

/-- In an ordered map, the entries before one have lower labels (R109). -/
theorem mapSorted_take {m : List MapEntry} (h : mapSorted m = true) {n : Nat} {x : MapEntry} (hx : m[n]? = some x) :
    ∀ y ∈ m.take n, y.label.toNat < x.label.toNat := by
  simp only [mapSorted, decide_eq_true_eq] at h
  have hpre : (m.take n ++ [x]).Pairwise (fun x y => x.label.toNat < y.label.toNat) := by
    rw [← take_succ_of_getElem? hx]
    exact h.sublist (List.take_sublist _ _)
  exact fun y hy => (List.pairwise_append.1 hpre).2.2 y hy x (by simp)

/-- An entry copied joins behind those copied (R122). -/
theorem mapInsert_take {m : List MapEntry} (h : mapSorted m = true) {n : Nat} {x : MapEntry} (hx : m[n]? = some x) :
    mapInsert (m.take n) x.label x.flow = m.take (n + 1) := by
  have hnew := mapInsert_new (m.take n) [] x.label x.flow (mapSorted_take h hx) nofun
  rwa [List.append_nil, ← take_succ_of_getElem? hx] at hnew

/-- The entry tested passes when its test names no failure (R123). -/
theorem State.checkEntry_none {s : State} {c : BankContents} {x : MapEntry} (hx : s.checkEntry c x = none) : c.entryPasses s.settings x := by
  unfold State.checkEntry at hx
  split at hx
  · cases hx
  · split at hx
    · cases hx
    · rename_i hpresent hlabel
      exact ⟨by simpa using hpresent, hlabel⟩

section Items

variable {s : State} (h : s.PlanLaw) {j : Job} (hj : s.plan.job = some j)

include h hj

theorem State.PlanLaw.copyItem (hk : j.kind = .copy) : (s.copyItem j).PlanLaw := by
  obtain ⟨hcore, -, -⟩ := s.planLaw_iff.1 h
  obtain ⟨hb, hready, hsound⟩ := hcore.jobSound j hj
  have hne : s.plan.job ≠ none := by simp [hj]
  have hbank := hcore.bankSound j.bank
  have hactive : s.plan.activeBank.Sound := hcore.bankSound s.plan.active
  have hpost (t : State) (hc : PlanCore t.plan t.settings) (hr : t.reports = s.reports) : t.PlanLaw :=
    h.of_core hc hr fun _ => hne
  obtain ⟨kind, bank, transaction, phase, progress⟩ := j
  dsimp only at hk hb hready hbank hsound
  subst hk
  unfold State.copyItem
  cases phase with
  | map =>
    simp only [Job.sound] at hsound
    obtain ⟨hlt, hmap⟩ := hsound
    have hget : s.plan.activeBank.map[progress]? = some s.plan.activeBank.map[progress] := List.getElem?_eq_getElem hlt
    have hinsert := mapInsert_take hactive.sorted hget
    simp only [hget]
    refine hpost _ (hcore.setBank (c := { s.plan.bank bank with map := mapInsert (s.plan.bank bank).map _ _ }) hb ?_
      (fun hr => absurd (hready.symm.trans hr) nofun) ?_) rfl
    · refine ⟨mapSorted_mapInsert _ _ _ hbank.sorted, ?_, hbank.valid⟩
      simp only [hmap]
      rw [hinsert, List.length_take]
      have := hactive.bounded
      omega
    · rintro j hj'
      obtain rfl := Option.some.inj hj'
      refine ⟨by simp [Job.stepped], hready, ?_⟩
      simp only [Job.stepped, phaseAfter, hmap, hinsert]
      split
      · rename_i hlast
        simp only [Job.sound]
        exact ⟨by omega, List.take_of_length_le hlast, fun f hf => absurd hf (Nat.not_lt_zero _)⟩
      · simp only [Job.sound]
        exact ⟨by omega, trivial⟩
  | flows =>
    simp only [Job.sound] at hsound
    obtain ⟨hlt, hmap, hflows⟩ := hsound
    have hfval : (Fin.ofNat 256 progress).val = progress := Nat.mod_eq_of_lt hlt
    have hcopied := hbank.setFlow (Fin.ofNat 256 progress) (hactive.valid (Fin.ofNat 256 progress))
    dsimp only
    split
    · exact h.endJob (u := s.setBank bank _) hne (hcore.setBank hb hcopied (fun hr => absurd (hready.symm.trans hr) nofun) nofun) rfl _ _
    · rename_i hgo
      refine hpost _ (hcore.setBank hb hcopied (fun hr => absurd (hready.symm.trans hr) nofun) ?_) rfl
      rintro j hj'
      obtain rfl := Option.some.inj hj'
      refine ⟨rfl, hready, ?_⟩
      simp only [Job.stepped, Job.sound]
      refine ⟨by omega, hmap, fun f hf => ?_⟩
      simp only [Fin.getElem_fin] at hflows ⊢
      rw [Vector.getElem_set]
      split
      · rename_i heq
        simp only [BankContents.descriptor, Fin.getElem_fin, heq]
      · rename_i hneq
        exact hflows f (by omega)

theorem State.PlanLaw.checkItem (hk : j.kind = .check) : (s.checkItem j).PlanLaw := by
  obtain ⟨hcore, -, -⟩ := s.planLaw_iff.1 h
  obtain ⟨hb, hready, hsound⟩ := hcore.jobSound j hj
  have hne : s.plan.job ≠ none := by simp [hj]
  have hbank := hcore.bankSound j.bank
  have hend (progress : Nat) (r : JobResult) : (s.endJob { j with progress := progress } r).PlanLaw :=
    h.endJob hne (hcore.setJob nofun) rfl _ _
  have hstep {j' : Job} (hbj : j'.bank = j.bank) (hs : j'.sound (s.plan.bank j.bank) s.plan.activeBank s.settings) :
      (s.setJob j').PlanLaw := by
    refine h.of_core (hcore.setJob ?_) rfl fun _ => hne
    rintro x hx
    obtain rfl := Option.some.inj hx
    rw [hbj]
    exact ⟨hb, hready, hs⟩
  obtain ⟨kind, bank, transaction, phase, progress⟩ := j
  dsimp only at hk hb hready hbank hsound
  subst hk
  unfold State.checkItem
  cases phase with
  | map =>
    simp only [Job.sound] at hsound
    obtain ⟨hlt, hpass⟩ := hsound
    have hget : (s.plan.bank bank).map[progress]? = some (s.plan.bank bank).map[progress] := List.getElem?_eq_getElem hlt
    simp only [hget]
    split
    · exact hend _ _
    · rename_i hnone
      have hentry := State.checkEntry_none hnone
      have hall : ∀ e ∈ (s.plan.bank bank).map.take (progress + 1), (s.plan.bank bank).entryPasses s.settings e := by
        rw [take_succ_of_getElem? hget]
        intro e he
        rcases List.mem_append.1 he with hin | hin
        · exact hpass e hin
        · rw [List.mem_singleton.1 hin]
          exact hentry
      refine hstep (by simp [Job.stepped]) ?_
      simp only [Job.stepped, phaseAfter]
      split
      · rename_i hlast
        rw [List.take_of_length_le hlast] at hall
        simp only [Job.sound]
        exact ⟨by omega, hall, fun _ hz => absurd hz (Nat.not_lt_zero _)⟩
      · simp only [Job.sound]
        exact ⟨by omega, hall⟩
  | flows =>
    simp only [Job.sound] at hsound
    obtain ⟨hlt, hpass, hdefault⟩ := hsound
    have hfval : (Fin.ofNat 256 progress).val = progress := Nat.mod_eq_of_lt hlt
    dsimp only
    split
    · exact hend _ _
    · rename_i hnone
      have hnow (hpolicy : s.settings.unmappedPolicy = .defaultFlow) (hle : s.settings.defaultFlow.val < progress + 1) :
          ((s.plan.bank bank).descriptor s.settings.defaultFlow).present = true := by
        by_cases hlt' : s.settings.defaultFlow.val < progress
        · exact hdefault hpolicy hlt'
        · have heq : Fin.ofNat 256 progress = s.settings.defaultFlow := Fin.ext (by omega)
          by_contra hp
          rw [State.checkDescriptor, heq, if_pos ⟨rfl, hpolicy, by simpa using hp⟩] at hnone
          cases hnone
      split
      · have hset := hcore.setBank (job := none) hb (hbank.of_ready true)
          (fun _ => ⟨hpass, fun hpolicy => hnow hpolicy (by omega)⟩) nofun
        exact h.endJob (u := s.setBank bank _) hne hset rfl _ _
      · refine hstep rfl ?_
        simp only [Job.stepped, Job.sound]
        exact ⟨by omega, hpass, hnow⟩

end Items

end Sys2Proof.Machine
end

section
/-! The plan law at Write Settings and at the other owning blocks, and so at every row. -/

namespace Sys2Proof.Machine

open Sys2Proof

/-! ## New settings (R127, R143) -/

/-- A bank that passes, and neither holds the new Management Label nor lacks the new Default Flow, passes the new settings (R127). -/
theorem BankContents.passes_new {c : BankContents} {old g : Settings} (h : c.passes old) (hl : ¬ c.holdsLabel g = true)
    (hd : ¬ c.lacksDefault g = true) : c.passes g := by
  rw [BankContents.holdsLabel_iff] at hl
  rw [BankContents.lacksDefault_iff] at hd
  refine ⟨fun e he => ⟨(h.1 e he).1, fun hlabel => hl ⟨e, he, hlabel⟩⟩, fun hpolicy => ?_⟩
  by_contra hp
  exact hd ⟨hpolicy, by simpa [BankContents.descriptor] using hp⟩

/-- A job's work speaks of the settings by the Management Label, the Unmapped Policy and the Default Flow alone (R143 check 2). -/
theorem Job.sound_same {j : Job} {target source : BankContents} {old g : Settings} (h : j.sound target source old)
    (hg : old.samePlanSettings g = true) : j.sound target source g := by
  obtain ⟨hlabel, hpolicy, hflow⟩ := (Settings.samePlanSettings_iff old g).1 hg
  obtain ⟨kind, bank, transaction, phase, progress⟩ := j
  cases kind with
  | copy => cases phase <;> exact h
  | check => cases phase <;> simpa only [Job.sound, BankContents.entryPasses, hlabel, hpolicy, hflow] using h

/-- A job's work does not speak of the Ready mark. -/
theorem Job.sound_ready {j : Job} {target source : BankContents} {g : Settings} (h : j.sound target source g) (r : Bool) :
    j.sound { target with ready := r } source g := by
  obtain ⟨kind, bank, transaction, phase, progress⟩ := j
  cases kind <;> cases phase <;> exact h

/-- Settings replaced over a plan that agrees with them. -/
theorem PlanCore.of_settings {p : PlanStore} {old g : Settings} (h : PlanCore p old)
    (hready : ∀ b, (p.bank b).ready = true → (p.bank b).passes g) (hsame : p.job ≠ none → old.samePlanSettings g = true) : PlanCore p g :=
  ⟨h.sorted, h.bounded, h.valid, h.activeReady, hready, fun j hj => by
    obtain ⟨hb, hr, hs⟩ := h.jobSound j hj
    exact ⟨hb, hr, Job.sound_same hs (hsame (by simp [hj]))⟩⟩

/-- A standby bank whose Ready mark is cleared (R127). -/
theorem PlanCore.clearReady {p : PlanStore} {g : Settings} (h : PlanCore p g) :
    PlanCore (p.setBank p.active.other { p.bank p.active.other with ready := false }) g := by
  have hset := h.setBank (job := p.job) p.active.other_ne ((h.bankSound p.active.other).of_ready false) nofun fun j hj => by
    obtain ⟨hb, -, hs⟩ := h.jobSound j hj
    have hbank := Bank.eq_other_of_ne _ _ hb
    rw [hbank] at hs
    exact ⟨hbank, rfl, Job.sound_ready hs false⟩
  rwa [PlanStore.setBank_eta] at hset

theorem State.PlanLaw.replaceSettings {s : State} (h : s.PlanLaw) {g : Settings}
    (hsame : s.plan.job ≠ none → s.settings.samePlanSettings g = true) (hl : ¬ s.plan.activeBank.holdsLabel g = true)
    (hd : ¬ s.plan.activeBank.lacksDefault g = true) : (s.replaceSettings g).PlanLaw := by
  obtain ⟨hcore, -, -⟩ := s.planLaw_iff.1 h
  have hactive : s.plan.activeBank.passes g := BankContents.passes_new (hcore.readyPasses s.plan.active hcore.activeReady) hl hd
  by_cases hconflict : (s.plan.bank s.plan.active.other).holdsLabel g = true ∨ (s.plan.bank s.plan.active.other).lacksDefault g = true
  · rw [State.replaceSettings_conflict hconflict]
    refine h.of_core (hcore.clearReady.of_settings (fun b hb => ?_) fun hn => ?_) rfl fun hn => ?_
    · by_cases hother : b = s.plan.active.other
      · rw [hother, PlanStore.bank_setBank_self] at hb
        cases hb
      · rw [PlanStore.bank_setBank_ne _ _ _ _ hother]
        have hb' : b = s.plan.active := by rw [Bank.eq_other_of_ne _ _ hother, Bank.other_other]
        rw [hb']
        exact hactive
    · rw [PlanStore.setBank_job] at hn
      exact hsame hn
    · rwa [PlanStore.setBank_job] at hn
  · obtain ⟨hlabel, hflow⟩ := not_or.1 hconflict
    rw [State.replaceSettings_agree hlabel hflow]
    refine h.of_core (hcore.of_settings (fun b hb => ?_) hsame) rfl id
    by_cases hother : b = s.plan.active.other
    · rw [hother] at hb ⊢
      exact BankContents.passes_new (hcore.readyPasses _ hb) hlabel hflow
    · have hb' : b = s.plan.active := by rw [Bank.eq_other_of_ne _ _ hother, Bank.other_other]
      rw [hb']
      exact hactive

/-! ## The owning blocks -/

section Owners

variable (e : InboxEntry) {s : State} (h : s.PlanLaw)

include h

theorem State.PlanLaw.writeSettings : (runWriteSettings e s).state.PlanLaw := by
  unfold runWriteSettings
  dsimp only
  repeat' split
  · exact h
  · exact h
  · exact h
  · exact h
  · rename_i hbusy hlabel hflow
    refine h.replaceSettings (fun hn => ?_) hlabel hflow
    rw [← Option.isSome_iff_ne_none] at hn
    simpa [State.jobRunning, hn] using hbusy

theorem State.PlanLaw.writeDescriptor {b : Bank} (hb : b ≠ s.plan.active) (hj : s.plan.job = none) (f : Flow) (r : DescriptorRecord) :
    (s.writeDescriptor b f r).state.PlanLaw := by
  obtain ⟨hcore, -, -⟩ := s.planLaw_iff.1 h
  unfold State.writeDescriptor
  split
  · exact h
  · rename_i hvalid
    have hrecord : r.toDescriptor.record.badField = none := by rw [r.toDescriptor_record hvalid]; exact hvalid
    exact h.writeBank hb hj (((hcore.bankSound b).setFlow f hrecord).of_ready false)

theorem State.PlanLaw.swap {b : Bank} (hready : (s.plan.bank b).ready = true) (hj : s.plan.job = none) : (s.swap b).PlanLaw := by
  obtain ⟨hcore, -, -⟩ := s.planLaw_iff.1 h
  have hswapped : State.PlanLaw { s with plan := { s.plan with active := b } } :=
    h.of_core ⟨hcore.sorted, hcore.bounded, hcore.valid, hready, hcore.readyPasses, fun j hjob => by simp [hj] at hjob⟩ rfl id
  exact hswapped.of_same rfl rfl rfl

/-- Every owning block keeps the plan law. -/
theorem ownerRun_planLaw (c : Instr) : (ownerRun c e s).state.PlanLaw := by
  obtain ⟨hcore, hinterlock, -⟩ := s.planLaw_iff.1 h
  cases c with
  | writeSettings => exact h.writeSettings e
  | readMapEntry => exact (runReadMapEntry_state e s).symm ▸ h
  | listMap => exact (runListMap_state e s).symm ▸ h
  | readFlow => exact (runReadFlow_state e s).symm ▸ h
  | readCounters => exact (runReadCounters_state e s).symm ▸ h
  | readAndClearCounters =>
    simp only [ownerRun, runReadAndClearCounters]
    split <;> exact h.of_same rfl rfl rfl
  | writeMapEntry =>
    refine s.guarded_keeps h fun b hb hj => ?_
    dsimp only
    split
    · exact h
    · rename_i hfull
      exact h.writeBank hb hj ((hcore.bankSound b).mapInsert _ _ hfull)
  | removeMapEntry =>
    refine s.guarded_keeps h fun b hb hj => ?_
    dsimp only
    split
    · exact h
    · exact h.writeBank hb hj ((hcore.bankSound b).mapRemove _)
  | writeFlow => exact s.guarded_keeps h fun b hb hj => h.writeDescriptor hb hj _ _
  | modifyFlow =>
    refine s.guarded_keeps h fun b hb hj => ?_
    dsimp only
    split
    · exact h
    · exact h.writeDescriptor hb hj _ _
  | copyPlan =>
    refine s.guarded_keeps h fun b hb _ => ?_
    split
    · exact h
    · rename_i hn
      exact h.startJob hb (by simpa [NoJobDone] using hn) .copy _
  | checkPlan =>
    refine s.guarded_keeps h fun b hb _ => ?_
    split
    · exact h
    · rename_i hn
      exact h.startJob hb (by simpa [NoJobDone] using hn) .check _
  | swapPlan =>
    refine s.withBank_keeps h fun b => ?_
    split
    · exact h
    · rename_i hrunning
      split
      · exact h
      · split
        · exact h.swap ‹_› (by simpa [State.jobRunning] using hrunning)
        · exact h
  | abortJob =>
    simp only [ownerRun, runAbortJob]
    split
    · rename_i j hj
      exact h.endJob (by simp [hj]) (hcore.setJob nofun) rfl _ _
    · exact h
  | flushFlow => exact h.of_same rfl rfl rfl
  | _ => exact h.of_same rfl rfl rfl

end Owners

/-! ## Every row -/

theorem State.powerUp_planLaw (straps : BitVec 4) : (State.powerUp straps).PlanLaw := by
  have hbank (b : Bank) : ∃ ready, (State.powerUp straps).plan.bank b = BankContents.powerUp ready := by
    cases b
    · exact ⟨true, rfl⟩
    · exact ⟨false, rfl⟩
  have hdescriptor (ready : Bool) (f : Flow) : (BankContents.powerUp ready).descriptor f = Descriptor.powerUp := by
    simp [BankContents.descriptor, BankContents.powerUp]
  rw [State.planLaw_iff]
  refine ⟨⟨fun b => ?_, fun b => ?_, fun b f => ?_, rfl, fun b _ => ?_, nofun⟩, fun _ => rfl, nofun⟩ <;>
    obtain ⟨ready, hb⟩ := hbank b <;> rw [hb]
  · rfl
  · exact Nat.zero_le _
  · rw [hdescriptor]
    decide
  · exact ⟨nofun, nofun⟩

/-- Rows that reach neither the plan nor the settings: all but the reset, the items of a job and the commands answered. -/
theorem exec_planUntouched {c : Instr} (hanswered : c ∉ answeredRows) (hjob : c ≠ .jobItemCompletion)
    (hreset : ∀ straps, c ≠ .powerUpReset straps) {s t : State} (h : exec c s = .next t) :
    t.plan = s.plan ∧ t.agent.settings = s.agent.settings := by
  have same {u : State} (hu : t = u) (hp : u.plan = s.plan) (hg : u.agent.settings = s.agent.settings) :
      t.plan = s.plan ∧ t.agent.settings = s.agent.settings := by
    rw [hu]
    exact ⟨hp, hg⟩
  have reception (k : ReceptionOnly s t ∧ (t.lineIn.state = .down ↔ s.lineIn.state = .down)) :
      t.plan = s.plan ∧ t.agent.settings = s.agent.settings := ⟨k.1.plan, k.1.settings⟩
  induction c using Instr.byRows with
  | answered c hc => exact absurd hc hanswered
  | powerUpReset straps => exact absurd rfl (hreset straps)
  | lineInStartDelimiter => exact reception (frame_reception s t _ (by simp) h)
  | lineInByte b => exact reception (frame_reception s t (.lineInByte b) (by simp) h)
  | lineInEndDelimiter => exact reception (frame_reception s t _ (by simp) h)
  | lineInErrorSymbol => exact reception (frame_reception s t _ (by simp) h)
  | lineInComesUp => exact same (frame_lineInComesUp s t h) rfl rfl
  | lineInGoesDown =>
    have hg : t.agent.settings = s.agent.settings := by
      simp only [exec, execLineInGoesDown, Host.Outcome.next.injEq] at h
      subst h
      split
      · rw [State.mergeDown_frame, State.loseFrame_frame]
      · rfl
    exact same (frame_lineInGoesDown s t h) rfl hg
  | restartAtLineIn => exact same (frame_restartAtLineIn s t h) rfl rfl
  | holdSymbol arg => exact same (frame_holdSymbol s t arg h) rfl rfl
  | receivedSymbol symbol arg =>
    simp only [exec, execReceivedAbortOrStreamReset, Host.Outcome.next.injEq] at h
    exact same h.symm rfl rfl
  | returnStartDelimiter => exact same (frame_returns s t .returnStartDelimiter (by simp) h) rfl rfl
  | returnByte b => exact same (frame_returns s t (.returnByte b) (by simp) h) rfl rfl
  | returnEndDelimiter => exact same (frame_returns s t .returnEndDelimiter (by simp) h) rfl rfl
  | returnErrorSymbol => exact same (frame_returns s t .returnErrorSymbol (by simp) h) rfl rfl
  | lineOutComesUp => exact same (frame_lineOutComesUp s t h) rfl rfl
  | lineOutGoesDown => exact same (frame_lineOutGoesDown s t h) rfl rfl
  | segmentCompletion => exact same (frame_segmentCompletion s t h) rfl rfl
  | controlSymbolCompletion => exact same (frame_controlSymbolCompletion s t h) rfl rfl
  | tickExpiry => exact same (frame_tickExpiry s t h) rfl rfl
  | stallTimerExpiry l => exact same (frame_stallTimerExpiry s t l h) rfl rfl
  | contextChange c f hf => exact same (frame_contextChange s t c f hf h) rfl rfl
  | admissionRequest => exact same (frame_admissionRequest s t h) rfl rfl
  | returnMergeChoice => exact same (frame_returnMergeChoice s t h) rfl rfl
  | transmissionCompletion => exact same (frame_transmissionCompletion s t h) rfl rfl
  | jobItemCompletion => exact absurd rfl hjob
  | restartTraffic =>
    have hg : t.agent.settings = s.agent.settings := by
      simp only [exec, execRestartTraffic, Host.Outcome.next.injEq] at h
      have hb := s.beginCommand_cases (InboxEntry.isCommand 0x12) [0] runRestartTraffic
      rw [h] at hb
      cases hb <;> rfl
    exact same (frame_restartTraffic s t h) rfl hg
  | restartAtPacing =>
    obtain ⟨hx, ha⟩ := frame_restartAtPacingUnit s t h
    have hg : t.agent.settings = s.agent.settings := by rw [ha]
    exact same hx rfl hg
  | restartAtEgress =>
    obtain ⟨hx, ha⟩ := frame_restartAtEgress s t h
    have hg : t.agent.settings = s.agent.settings := by rw [ha]
    exact same hx rfl hg
  | restartCompletion =>
    have hg : t.agent.settings = s.agent.settings := by
      simp only [exec, execRestartTrafficCompletion, Host.Outcome.next.injEq] at h
      subst h
      split <;> rfl
    exact same (frame_restartCompletion s t h) rfl hg

/-- One command keeps the plan law. -/
theorem exec_planLaw {c : Instr} {s t : State} (h : exec c s = .next t) (hs : s.PlanLaw) : t.PlanLaw := by
  by_cases hanswered : c ∈ answeredRows
  · exact answeredRow_keeps (P := State.PlanLaw) hanswered (fun u _ _ _ hu => hu.of_same rfl rfl rfl) (fun e u hu => ownerRun_planLaw e hu c) h hs
  · by_cases hjob : c = .jobItemCompletion
    · subst hjob
      simp only [exec, execJobItemCompletion, Host.Outcome.next.injEq] at h
      subst h
      split
      · rename_i j hj
        split
        · exact hs.copyItem hj ‹_›
        · exact hs.checkItem hj ‹_›
      · exact hs
    · by_cases hreset : ∃ straps, c = .powerUpReset straps
      · obtain ⟨straps, rfl⟩ := hreset
        rw [exec_powerUpReset s t h]
        exact (State.powerUp_planLaw straps).of_same rfl rfl rfl
      · obtain ⟨hp, hg⟩ := exec_planUntouched hanswered hjob (fun straps hc => hreset ⟨straps, hc⟩) h
        rw [State.planLaw_iff] at hs ⊢
        rw [State.settings, hp, hg]
        exact ⟨hs.1, fun hn => exec_reports noJobDone_kept hanswered hjob h (hs.2.1 hn),
          exec_reports jobDoneOnce_kept hanswered hjob h hs.2.2⟩

end Sys2Proof.Machine
end

section
/-! The settings' ranges and the flow queues, and so the plan law with both at every step (O7). -/

namespace Sys2Proof.Machine

open Sys2Proof

/-! ## The flow queues (R52) -/

/-- Every queue keeps frames it held, in their order. -/
def QueuesSub (s t : State) : Prop := ∀ flow : Flow, t.pacing.queues[flow].Sublist s.pacing.queues[flow]

theorem QueuesSub.of_eq {s t : State} (h : t.pacing.queues = s.pacing.queues) : QueuesSub s t := fun flow => by rw [h]

theorem QueuesSub.trans {s t u : State} (h : QueuesSub s t) (k : QueuesSub t u) : QueuesSub s u :=
  fun flow => (k flow).trans (h flow)

theorem State.QueueLaw.of_sub {s t : State} (h : s.QueueLaw) (hsub : QueuesSub s t) : t.QueueLaw where
  flows flow f hf := h.flows flow f ((hsub flow).subset hf)
  bounded flow := (hsub flow).length_le.trans (h.bounded flow)

/-- One queue replaced by a shorter one. -/
theorem QueuesSub.set {s t : State} {flow : Flow} {q : List QueuedFrame} (ht : t.pacing.queues = s.pacing.queues.set flow q)
    (hq : q.Sublist s.pacing.queues[flow]) : QueuesSub s t := by
  intro x
  simp only [Fin.getElem_fin] at hq
  simp only [ht, Fin.getElem_fin]
  rw [Vector.getElem_set]
  split
  · rename_i heq
    simpa only [← heq] using hq
  · exact List.Sublist.refl _

/-- An evaluation leaves the end of its queue (R67). -/
theorem Descriptor.pass_sublist (d : Descriptor) (tick : Word32) (draw : Nat) (flow : Flow) (queue : List QueuedFrame) (i : Nat)
    (c : PacingCounters) : (d.pass tick draw flow queue i c).queue.Sublist queue := by
  obtain ⟨passed, hq, -⟩ := d.pass_passed tick draw flow queue i c
  have hsuffix := List.sublist_append_right passed (d.pass tick draw flow queue i c).queue
  rwa [← hq] at hsuffix

@[simp] theorem State.insertLanes_pacing (s : State) (released : List ReleasedFrame) : (s.insertLanes released).pacing = s.pacing := by
  rw [State.insertLanes_frame]

theorem State.evaluateFlow_sub (s : State) (flow : Flow) : QueuesSub s (s.evaluateFlow flow) := by
  refine QueuesSub.set (q := ((s.activeDescriptor flow).evaluate s.pacing.tickCounter s.draws flow s.pacing.contexts[flow]
    s.pacing.queues[flow]).queue) ?_ (Descriptor.pass_sublist ..)
  simp only [State.evaluateFlow, State.insertLanes_pacing, State.returnChains_pacing]

theorem State.sweep_sub (s : State) : QueuesSub s s.sweep := by
  intro flow
  simp only [State.sweep, State.insertLanes_pacing, State.returnChains_pacing, Fin.getElem_fin, Vector.getElem_ofFn]
  simp only [State.sweepFlow]
  split
  · exact Descriptor.pass_sublist ..
  · exact List.Sublist.refl _

theorem State.flushQueues_sub (s : State) (which : Flow → Bool) : QueuesSub s (s.flushQueues which) := by
  intro flow
  simp only [State.flushQueues, State.returnChains_pacing, Fin.getElem_fin, Vector.getElem_ofFn]
  split
  · exact List.nil_sublist _
  · exact List.Sublist.refl _

theorem State.clearContexts_sub (s : State) (which : Flow → Bool) : QueuesSub s (s.clearContexts which) := .of_eq (by simp)

/-- A valid descriptor's Depth Limit is at most 64 (R110). -/
theorem Descriptor.depthLimit_le {d : Descriptor} (h : d.record.badField = none) : d.depthLimit.toNat ≤ 64 := by
  rw [DescriptorRecord.badField_eq_find, List.find?_eq_none] at h
  have h9 := h 9 (by simp)
  rw [DescriptorRecord.fieldOutOfRange_iff] at h9
  have hd : d.record.depthLimit = d.depthLimit := rfl
  simp only [hd] at h9
  by_contra hlt
  exact h9 (by simp; omega)

/-- A queue with one frame of its flow more, or in place of its head. -/
theorem State.QueueLaw.setQueue {s : State} (h : s.QueueLaw) {flow : Flow} {q : List QueuedFrame}
    (hq : ∀ f ∈ q, f.flow = flow) (hl : q.length ≤ 64) : (s.setQueue flow q).QueueLaw := by
  have hget (x : Flow) : (s.setQueue flow q).pacing.queues[x] = if flow = x then q else s.pacing.queues[x] := by
    simp only [State.setQueue_pacing, Fin.getElem_fin]
    rw [Vector.getElem_set]
    simp only [Fin.ext_iff]
  constructor <;> intro x <;> rw [hget]
  · split
    · rename_i heq
      exact heq ▸ hq
    · exact h.flows x
  · split
    · exact hl
    · exact h.bounded x

/-- What leaves the queues leaves their law. -/
theorem State.QueueLaw.of_same {s t : State} (h : s.QueueLaw) (hq : t.pacing.queues = s.pacing.queues) : t.QueueLaw :=
  h.of_sub (.of_eq hq)

/-- The queue's step of an admission (R54 to R56). -/
theorem State.QueueLaw.admitFrame {s : State} (h : s.QueueLaw) (hp : s.PlanLaw) (f : FrameRecord) : (s.admitFrame f).QueueLaw := by
  have hdepth : (s.activeDescriptor f.flow).depthLimit.toNat ≤ 64 := Descriptor.depthLimit_le (hp.valid s.plan.active f.flow)
  have hflows := h.flows f.flow
  have hbound := h.bounded f.flow
  have harrived : (f.arrive s.pacing.tickCounter).flow = f.flow := rfl
  unfold State.admitFrame
  dsimp only
  split
  · refine (h.setQueue (q := s.pacing.queues[f.flow] ++ [f.arrive s.pacing.tickCounter]) (fun x hx => ?_) ?_).of_same rfl
    · rcases List.mem_append.1 hx with hin | hin
      · exact hflows x hin
      · rw [List.mem_singleton.1 hin, harrived]
    · rw [List.length_append, List.length_singleton]
      omega
  · split
    · exact h.of_same rfl
    · rename_i head rest _ hq
      rw [hq] at hflows hbound
      refine (h.setQueue (q := rest ++ [f.arrive s.pacing.tickCounter]) (fun x hx => ?_) ?_).of_same rfl
      · rcases List.mem_append.1 hx with hin | hin
        · exact hflows x (List.mem_cons_of_mem _ hin)
        · rw [List.mem_singleton.1 hin, harrived]
      · rw [List.length_append, List.length_singleton]
        simpa using hbound
    · refine (h.setQueue (q := [f.arrive s.pacing.tickCounter]) (fun x hx => ?_) (by simp)).of_same rfl
      rw [List.mem_singleton.1 hx, harrived]

theorem State.QueueLaw.takeRequest {s : State} (h : s.QueueLaw) (hp : s.PlanLaw) (f : FrameRecord) : (s.takeRequest f).QueueLaw := by
  unfold State.takeRequest
  split
  · exact (h.admitFrame hp f).of_sub (State.evaluateFlow_sub _ _)
  · exact h.of_same rfl

/-! ## The owning blocks -/

/-- Every owning block but that of Write Settings leaves the settings; none adds to a queue. -/
theorem ownerRun_settings {c : Instr} (hc : c ≠ .writeSettings) (e : InboxEntry) (s : State) :
    (ownerRun c e s).state.agent.settings = s.agent.settings ∧ QueuesSub s (ownerRun c e s).state := by
  have same {u : State} (hu : u.agent.settings = s.agent.settings) (hq : u.pacing.queues = s.pacing.queues) :
      u.agent.settings = s.agent.settings ∧ QueuesSub s u := ⟨hu, .of_eq hq⟩
  have nothing {u : State} (hu : u = s) : u.agent.settings = s.agent.settings ∧ QueuesSub s u := same (by rw [hu]) (by rw [hu])
  cases c with
  | writeSettings => exact absurd rfl hc
  | readMapEntry => exact nothing (runReadMapEntry_state e s)
  | listMap => exact nothing (runListMap_state e s)
  | readFlow => exact nothing (runReadFlow_state e s)
  | readCounters => exact nothing (runReadCounters_state e s)
  | readAndClearCounters =>
    simp only [ownerRun, runReadAndClearCounters]
    split <;> exact same rfl rfl
  | writeMapEntry =>
    refine s.guarded_keeps (P := fun u => u.agent.settings = s.agent.settings ∧ QueuesSub s u) (same rfl rfl) fun b _ _ => ?_
    dsimp only
    split <;> exact same rfl rfl
  | removeMapEntry =>
    refine s.guarded_keeps (P := fun u => u.agent.settings = s.agent.settings ∧ QueuesSub s u) (same rfl rfl) fun b _ _ => ?_
    dsimp only
    split <;> exact same rfl rfl
  | writeFlow =>
    refine s.guarded_keeps (P := fun u => u.agent.settings = s.agent.settings ∧ QueuesSub s u) (same rfl rfl) fun b _ _ => ?_
    simp only [State.writeDescriptor]
    split <;> exact same rfl rfl
  | modifyFlow =>
    refine s.guarded_keeps (P := fun u => u.agent.settings = s.agent.settings ∧ QueuesSub s u) (same rfl rfl) fun b _ _ => ?_
    simp only [State.writeDescriptor]
    repeat' split
    all_goals exact same rfl rfl
  | copyPlan =>
    refine s.guarded_keeps (P := fun u => u.agent.settings = s.agent.settings ∧ QueuesSub s u) (same rfl rfl) fun b _ _ => ?_
    split <;> exact same rfl rfl
  | checkPlan =>
    refine s.guarded_keeps (P := fun u => u.agent.settings = s.agent.settings ∧ QueuesSub s u) (same rfl rfl) fun b _ _ => ?_
    split <;> exact same rfl rfl
  | swapPlan =>
    refine s.withBank_keeps (P := fun u => u.agent.settings = s.agent.settings ∧ QueuesSub s u) (same rfl rfl) fun b => ?_
    repeat' split
    · exact same rfl rfl
    · exact same rfl rfl
    · exact ⟨rfl, (QueuesSub.of_eq (t := { s with plan := { s.plan with active := b } }) rfl).trans
        ((State.flushQueues_sub _ _).trans (State.clearContexts_sub _ _))⟩
    · exact same rfl rfl
  | abortJob =>
    simp only [ownerRun, runAbortJob]
    split <;> exact same rfl rfl
  | flushFlow => exact ⟨rfl, s.flushQueues_sub _⟩
  | _ => exact same rfl rfl

/-- Settings that are judged in range lie in their ranges (R141, R143). -/
theorem SettingsRecord.toSettings_inRange {r : SettingsRecord} (h : r.badSetting = none) :
    (1 ≤ r.toSettings.tickPeriod.toNat ∧ r.toSettings.tickPeriod.toNat ≤ 4096) ∧ r.toSettings.reserveFloor.toNat ≤ 128 := by
  rw [SettingsRecord.toSettings_valid h]
  rw [SettingsRecord.badSetting_eq] at h
  split at h
  · cases h
  · rename_i htick
    split at h
    · cases h
    · rename_i hfloor
      have hzero : r.tickPeriod = 0 ↔ r.tickPeriod.toNat = 0 := BitVec.toNat_inj.symm
      simp only [not_or, hzero] at htick
      have htick' : 1 ≤ r.tickPeriod.toNat ∧ r.tickPeriod.toNat ≤ 4096 := by omega
      exact ⟨htick', by simpa using hfloor⟩

theorem State.SettingsLaw.of_same {s t : State} (h : s.SettingsLaw) (hg : t.agent.settings = s.agent.settings) : t.SettingsLaw := by
  obtain ⟨ht, hf⟩ := h
  refine ⟨?_, ?_⟩ <;> rw [State.settings, hg]
  · exact ht
  · exact hf

theorem State.SettingsLaw.owner {s : State} (h : s.SettingsLaw) (c : Instr) (e : InboxEntry) : (ownerRun c e s).state.SettingsLaw := by
  by_cases hc : c = .writeSettings
  · subst hc
    simp only [ownerRun, runWriteSettings]
    repeat' split
    · exact h
    · exact h
    · exact h
    · exact h
    · rename_i hgood _ _ _
      obtain ⟨htick, hfloor⟩ := SettingsRecord.toSettings_inRange hgood
      exact ⟨htick, hfloor⟩
  · exact h.of_same (ownerRun_settings hc e s).1

theorem State.QueueLaw.owner {s : State} (h : s.QueueLaw) (c : Instr) (e : InboxEntry) : (ownerRun c e s).state.QueueLaw := by
  by_cases hc : c = .writeSettings
  · subst hc
    simp only [ownerRun, runWriteSettings, State.replaceSettings]
    repeat' split
    all_goals exact h.of_same rfl
  · exact h.of_sub (ownerRun_settings hc e s).2

/-! ## Every row -/

theorem State.powerUp_settingsLaw (straps : BitVec 4) : (State.powerUp straps).SettingsLaw :=
  have hperiod : 1 ≤ (100#16).toNat ∧ (100#16).toNat ≤ 4096 := by decide
  have hfloor : (32#16).toNat ≤ 128 := by decide
  ⟨hperiod, hfloor⟩

theorem State.powerUp_queueLaw (straps : BitVec 4) : (State.powerUp straps).QueueLaw := by
  have hempty (flow : Flow) : (State.powerUp straps).pacing.queues[flow] = [] := by
    simp [State.powerUp, PacingUnit.powerUp]
  constructor <;> intro flow <;> rw [hempty]
  · exact nofun
  · exact Nat.zero_le _

/-- One command keeps every setting in its range. -/
theorem exec_settingsLaw {c : Instr} {s t : State} (h : exec c s = .next t) (hs : s.SettingsLaw) : t.SettingsLaw := by
  by_cases hanswered : c ∈ answeredRows
  · exact answeredRow_keeps (P := State.SettingsLaw) hanswered (fun u _ _ _ hu => hu.of_same rfl) (fun e u hu => hu.owner c e) h hs
  · by_cases hjob : c = .jobItemCompletion
    · subst hjob
      exact hs.of_same (by rw [frame_jobItemCompletion s t h])
    · by_cases hreset : ∃ straps, c = .powerUpReset straps
      · obtain ⟨straps, rfl⟩ := hreset
        rw [exec_powerUpReset s t h]
        exact (State.powerUp_settingsLaw straps).of_same rfl
      · exact hs.of_same (exec_planUntouched hanswered hjob (fun straps hc => hreset ⟨straps, hc⟩) h).2

/-- One command keeps the law of the flow queues: an admission alone adds to one, below its Depth Limit (R52, R54). -/
theorem exec_queueLaw {c : Instr} {s t : State} (h : exec c s = .next t) (hp : s.PlanLaw) (hs : s.QueueLaw) : t.QueueLaw := by
  have same {u : State} (hu : t = u) (hq : u.pacing.queues = s.pacing.queues) : t.QueueLaw := by
    rw [hu]
    exact hs.of_same hq
  induction c using Instr.byRows with
  | answered c hc => exact answeredRow_keeps (P := State.QueueLaw) hc (fun u _ _ _ hu => hu.of_same rfl) (fun e u hu => hu.owner c e) h hs
  | powerUpReset straps =>
    rw [exec_powerUpReset s t h]
    exact (State.powerUp_queueLaw straps).of_same rfl
  | lineInStartDelimiter => exact hs.of_same (frame_reception s t _ (by simp) h).1.queues
  | lineInByte b => exact hs.of_same (frame_reception s t (.lineInByte b) (by simp) h).1.queues
  | lineInEndDelimiter => exact hs.of_same (frame_reception s t _ (by simp) h).1.queues
  | lineInErrorSymbol => exact hs.of_same (frame_reception s t _ (by simp) h).1.queues
  | lineInComesUp => exact same (frame_lineInComesUp s t h) rfl
  | lineInGoesDown => exact same (frame_lineInGoesDown s t h) rfl
  | restartAtLineIn => exact same (frame_restartAtLineIn s t h) rfl
  | holdSymbol arg => exact same (frame_holdSymbol s t arg h) rfl
  | receivedSymbol symbol arg =>
    simp only [exec, execReceivedAbortOrStreamReset, Host.Outcome.next.injEq] at h
    exact same h.symm rfl
  | returnStartDelimiter => exact same (frame_returns s t .returnStartDelimiter (by simp) h) rfl
  | returnByte b => exact same (frame_returns s t (.returnByte b) (by simp) h) rfl
  | returnEndDelimiter => exact same (frame_returns s t .returnEndDelimiter (by simp) h) rfl
  | returnErrorSymbol => exact same (frame_returns s t .returnErrorSymbol (by simp) h) rfl
  | lineOutComesUp => exact same (frame_lineOutComesUp s t h) rfl
  | lineOutGoesDown => exact same (frame_lineOutGoesDown s t h) rfl
  | segmentCompletion => exact same (frame_segmentCompletion s t h) rfl
  | controlSymbolCompletion => exact same (frame_controlSymbolCompletion s t h) rfl
  | tickExpiry =>
    simp only [exec, execTickExpiry, Host.Outcome.next.injEq] at h
    subst h
    have hsub := (QueuesSub.of_eq (t := s.countTick) rfl).trans s.countTick.sweep_sub
    generalize s.countTick.sweep = u at hsub ⊢
    exact (hs.of_sub hsub).of_same rfl
  | stallTimerExpiry l => exact same (frame_stallTimerExpiry s t l h) rfl
  | contextChange c f hf => exact same (frame_contextChange s t c f hf h) rfl
  | admissionRequest =>
    simp only [exec, execAdmissionRequest, Host.Outcome.next.injEq] at h
    subst h
    split
    · exact hs
    · refine State.QueueLaw.takeRequest ?_ ?_ _
      · exact hs.of_same rfl
      · exact hp.of_same rfl rfl rfl
  | returnMergeChoice => exact same (frame_returnMergeChoice s t h) rfl
  | transmissionCompletion => exact same (frame_transmissionCompletion s t h) rfl
  | jobItemCompletion => exact same (frame_jobItemCompletion s t h) rfl
  | restartTraffic => exact same (frame_restartTraffic s t h) rfl
  | restartAtPacing =>
    simp only [exec, execRestartAtPacingUnit, Host.Outcome.next.injEq] at h
    subst h
    split
    · refine hs.of_sub (QueuesSub.trans ?_ (State.clearContexts_sub _ _))
      refine QueuesSub.trans ?_ (State.flushQueues_sub _ _)
      exact .of_eq rfl
    · exact hs
  | restartAtEgress => exact same (frame_restartAtEgress s t h).1 rfl
  | restartCompletion => exact same (frame_restartCompletion s t h) rfl

/-- Settles O7: writes reach the standby bank alone, a job's work goes item by item, and an admission is bounded by the Depth Limit. -/
theorem stepKeepsPlanLaw : Obligations.StepKeepsPlanLaw := fun _ _ hp h =>
  ⟨step_keeps (fun _ _ hs => hs.of_same rfl rfl rfl) (fun _ _ _ => exec_planLaw) h hp,
    step_keeps (fun _ _ hs => hs.of_same rfl) (fun _ _ _ => exec_settingsLaw) h,
    fun hq => (step_keeps (P := fun u => u.PlanLaw ∧ u.QueueLaw) (fun _ _ hs => ⟨hs.1.of_same rfl rfl rfl, hs.2.of_same rfl⟩)
      (fun _ _ _ h hs => ⟨exec_planLaw h hs.1, exec_queueLaw h hs.1 hs.2⟩) h ⟨hp, hq⟩).2⟩

end Sys2Proof.Machine
end

section
/-! The scheduler's laws at a decision event: the choice makes of a scheduler that is still to decide one whose slot keeps the law too. -/

namespace Sys2Proof.Machine

open Sys2Proof

/-- The scheduler's laws inside an event, before its choice is made: all but that of the idle slot. -/
structure EgressScheduler.Undecided (e : EgressScheduler) (o : LineOutReceiver) : Prop where
  laneLevels : ∀ l : Level, ∀ f ∈ e.lanes[l], f.level = l
  stackLevels : e.stack.Pairwise (fun above below => above.level < below.level)
  currentLevel : ∀ c ∈ e.current, ∀ t ∈ e.stack, c.level < t.level
  stackBegun : ∀ c ∈ e.stack, c.begun
  currentBegun : ∀ c ∈ e.current, e.segmentInFlight = false → c.begun
  segmentOfCurrent : ∀ g, e.inFlight = some (.segment g) →
    ∃ c, e.current = some c ∧ g.stream = c.level ∧ g.position = positionOf (blocksOf c.length) c.segmentsSent
  dropInFlight : e.dropMark = true → e.segmentInFlight = true
  pendingGone : ∀ l, held e.pendingAborts l = true →
    (∀ c ∈ e.stack, c.level ≠ l) ∧ ∀ c ∈ e.current, c.level = l → e.dropMark = true
  resetFirst : e.streamReset = true ∨ e.inFlight = some .streamReset → e.current = none ∧ e.stack = []
  timersHeld : ∀ l : Level, e.timers[l] ≠ .stopped → held o.holdMask l = true ∧ e.hasPartial l = true
  down : o.state = .down → e.inFlight = none ∧ e.current = none ∧ e.stack = [] ∧ e.pendingAborts = 0
    ∧ e.streamReset = true ∧ o.holdMask = 0

theorem EgressScheduler.law_iff (e : EgressScheduler) (o : LineOutReceiver) :
    e.Law o ↔ e.Undecided o ∧ (e.inFlight = none → e.current = none) :=
  ⟨fun h => ⟨⟨h.laneLevels, h.stackLevels, h.currentLevel, h.stackBegun, h.currentBegun, h.segmentOfCurrent, h.dropInFlight, h.pendingGone,
    h.resetFirst, h.timersHeld, h.down⟩, h.idleSlot⟩, fun ⟨h, hidle⟩ => ⟨h.laneLevels, h.stackLevels, h.currentLevel, h.stackBegun,
    h.currentBegun, h.segmentOfCurrent, hidle, h.dropInFlight, h.pendingGone, h.resetFirst, h.timersHeld, h.down⟩⟩

theorem EgressScheduler.Law.undecided {e : EgressScheduler} {o : LineOutReceiver} (h : e.Law o) : e.Undecided o := ((e.law_iff o).1 h).1

/-! ## What is in flight, and partial frames -/

theorem EgressScheduler.segmentInFlight_of_none {e : EgressScheduler} (h : e.inFlight = none) : e.segmentInFlight = false := by
  simp [EgressScheduler.segmentInFlight, h]

theorem EgressScheduler.finalInFlight_of_not_segment {e : EgressScheduler} (h : e.segmentInFlight = false) : e.finalInFlight = false := by
  unfold EgressScheduler.segmentInFlight at h
  unfold EgressScheduler.finalInFlight
  split
  · rename_i hg
    simp [hg] at h
  · rfl

/-- A frame of the stack is a partial frame of its level (R35). -/
theorem EgressScheduler.hasPartial_of_stack {e : EgressScheduler} {c : SentFrame} (h : c ∈ e.stack) : e.hasPartial c.level = true := by
  simp only [EgressScheduler.hasPartial, Bool.or_eq_true, List.any_eq_true]
  exact .inr ⟨c, h, by simp⟩

/-- A partial frame of a level stands in the slot or on the stack (R35). -/
theorem EgressScheduler.hasPartial_cases {e : EgressScheduler} {l : Level} (h : e.hasPartial l = true) :
    (∃ c, e.current = some c ∧ c.level = l ∧ e.dropMark = false ∧ e.finalInFlight = false) ∨ ∃ c ∈ e.stack, c.level = l := by
  simp only [EgressScheduler.hasPartial, EgressScheduler.partialCurrent, Bool.or_eq_true, List.any_eq_true] at h
  rcases h with h | ⟨c, hc, hl⟩
  · left
    split at h
    · simp at h
    · rename_i hclear
      simp only [not_or, Bool.not_eq_true] at hclear
      obtain ⟨c, hc, hl⟩ := (Option.any_eq_true _ _).1 h
      exact ⟨c, hc, by simpa using hl, hclear⟩
  · exact .inr ⟨c, hc, by simpa using hl⟩

/-- A frame in the slot that is neither Drop-marked nor sending its final segment is a partial frame of its level (R35). -/
theorem EgressScheduler.hasPartial_of_current {e : EgressScheduler} {c : SentFrame} (h : e.current = some c) (hd : e.dropMark = false)
    (hf : e.finalInFlight = false) : e.hasPartial c.level = true := by
  simp [EgressScheduler.hasPartial, EgressScheduler.partialCurrent, h, hd, hf]

/-- A lane without its head keeps the law of the levels. -/
theorem laneLevels_set {lanes : Vector (List ReleasedFrame) 4} (h : ∀ l : Level, ∀ f ∈ lanes[l], f.level = l) {l : Level}
    {f : ReleasedFrame} {rest : List ReleasedFrame} (hl : lanes[l] = f :: rest) :
    ∀ k : Level, ∀ x ∈ (lanes.set l rest)[k], x.level = k := by
  intro k x hx
  simp only [Fin.getElem_fin] at hx
  rw [Vector.getElem_set] at hx
  split at hx
  · rename_i heq
    have hk : l = k := Fin.ext heq
    exact h k x (by rw [← hk, hl]; exact List.mem_cons_of_mem _ hx)
  · exact h k x hx

section
variable {e : EgressScheduler} {o : LineOutReceiver} (h : e.Undecided o)
include h

/-- With no segment in flight the slot is not Drop-marked (R25, R40). -/
theorem EgressScheduler.Undecided.dropMark_clear (hf : e.inFlight = none) : e.dropMark = false := by
  have hdrop := h.dropInFlight
  rw [EgressScheduler.segmentInFlight_of_none hf] at hdrop
  simpa using hdrop

/-- The current frame of a scheduler that is to decide goes to the stack (R13, R14). -/
theorem EgressScheduler.Undecided.push (hf : e.inFlight = none) {c : SentFrame} (hc : e.current = some c)
    (ha : ∀ l, held e.pendingAborts l = false) : (e.push c).Undecided o := by
  have hcur : c ∈ e.current := hc
  have hreset : ¬ (e.streamReset = true ∨ e.inFlight = some .streamReset) := fun hr => by simpa [hc] using (h.resetFirst hr).1
  exact {
    laneLevels := h.laneLevels
    stackLevels := List.pairwise_cons.2 ⟨h.currentLevel c hcur, h.stackLevels⟩
    currentLevel := nofun
    stackBegun := List.forall_mem_cons.2 ⟨h.currentBegun c hcur (EgressScheduler.segmentInFlight_of_none hf), h.stackBegun⟩
    currentBegun := nofun
    segmentOfCurrent := fun g hg => by simp [EgressScheduler.push, hf] at hg
    dropInFlight := h.dropInFlight
    pendingGone := fun l hl => absurd hl (by simp [EgressScheduler.push, ha l])
    resetFirst := fun hr => absurd hr hreset
    timersHeld := fun l hl => by
      obtain ⟨hheld, hpartial⟩ := h.timersHeld l hl
      refine ⟨hheld, ?_⟩
      rcases EgressScheduler.hasPartial_cases hpartial with ⟨x, hx, rfl, -⟩ | ⟨x, hx, rfl⟩
      · rw [hc, Option.some.injEq] at hx
        exact hx ▸ EgressScheduler.hasPartial_of_stack (e := e.push c) (List.mem_cons_self ..)
      · exact EgressScheduler.hasPartial_of_stack (e := e.push c) (List.mem_cons_of_mem _ hx)
    down := fun hd => by
      obtain ⟨-, hnone, -⟩ := h.down hd
      simp [hc] at hnone }

/-- A lane's head started over the stack as it stands (R6, R15). -/
theorem EgressScheduler.Undecided.start (st : FrameStore) (hup : o.state ≠ .down) (hr : e.streamReset = false) (hc : e.current = none)
    (ha : ∀ l, held e.pendingAborts l = false) {l : Level} {f : ReleasedFrame} {rest : List ReleasedFrame} (hl : l.val < e.bound)
    (hf : e.lanes[l] = f :: rest) :
    EgressScheduler.Law { e with
      lanes := e.lanes.set l rest, dropMark := false, current := some { toReleasedFrame := f, segmentsSent := 0 },
      inFlight := some (.segment (formSegment st f 0)) } o := by
  have hflevel : f.level = l := h.laneLevels l f (by rw [hf]; exact List.mem_cons_self ..)
  have hbelow : ∀ t ∈ e.stack, l < t.level := by
    unfold EgressScheduler.bound at hl
    split at hl
    · rename_i hnil
      simp [hnil]
    · rename_i t rest hstack
      have hpair := h.stackLevels
      rw [hstack, List.pairwise_cons] at hpair
      rw [hstack]
      exact List.forall_mem_cons.2 ⟨hl, fun u hu => lt_trans (Fin.lt_def.2 hl) (hpair.1 u hu)⟩
  exact {
    laneLevels := laneLevels_set h.laneLevels hf
    stackLevels := h.stackLevels
    currentLevel := fun c hcur t ht => by
      cases hcur
      exact hflevel ▸ hbelow t ht
    stackBegun := h.stackBegun
    currentBegun := nofun
    segmentOfCurrent := fun g hg => by
      cases hg
      exact ⟨_, rfl, rfl, rfl⟩
    idleSlot := nofun
    dropInFlight := nofun
    pendingGone := fun k hk => absurd hk (by simp [ha k])
    resetFirst := fun hreset => by simp [hr] at hreset
    timersHeld := fun k hk => by
      obtain ⟨hheld, hpartial⟩ := h.timersHeld k hk
      refine ⟨hheld, ?_⟩
      rcases EgressScheduler.hasPartial_cases hpartial with ⟨x, hx, -⟩ | ⟨x, hx, rfl⟩
      · simp [hc] at hx
      · exact EgressScheduler.hasPartial_of_stack hx
    down := fun hd => absurd hd hup }

/-- What a choice without a current frame leaves (R15, R16). -/
theorem EgressScheduler.Undecided.idleChoice {st : FrameStore} (hup : o.state ≠ .down) (hr : e.streamReset = false)
    (hc : e.current = none) (ha : ∀ l, held e.pendingAborts l = false) {x : EgressScheduler} (hx : IdleChoice e st o.holdMask x) :
    x.Law o := by
  cases hx with
  | start l f rest hl hh hf => exact h.start st hup hr hc ha hl hf
  | nothing => exact (e.law_iff o).2 ⟨h, fun _ => hc⟩
  | resume t rest ht hh =>
    have hpair := h.stackLevels
    rw [ht, List.pairwise_cons] at hpair
    have hbegun := h.stackBegun
    rw [ht] at hbegun
    exact {
      laneLevels := h.laneLevels
      stackLevels := hpair.2
      currentLevel := fun c hcur u hu => by
        cases hcur
        exact hpair.1 u hu
      stackBegun := fun c hc => hbegun c (List.mem_cons_of_mem _ hc)
      currentBegun := nofun
      segmentOfCurrent := fun g hg => by
        cases hg
        exact ⟨_, rfl, rfl, rfl⟩
      idleSlot := nofun
      dropInFlight := fun _ => rfl
      pendingGone := fun k hk => absurd hk (by simp [ha k])
      resetFirst := fun hreset => by simp [hr] at hreset
      timersHeld := fun k hk => by
        obtain ⟨hheld, hpartial⟩ := h.timersHeld k hk
        refine ⟨hheld, ?_⟩
        rcases EgressScheduler.hasPartial_cases hpartial with ⟨y, hy, -⟩ | ⟨y, hy, rfl⟩
        · simp [hc] at hy
        · rw [ht] at hy
          rcases List.mem_cons.1 hy with rfl | hrest
          · simp [hh] at hheld
          · exact EgressScheduler.hasPartial_of_stack hrest
      down := fun hd => absurd hd hup }

/-- What any choice leaves (R12 to R16). -/
theorem EgressScheduler.Undecided.anyChoice {st : FrameStore} (hup : o.state ≠ .down) (hn : e.inFlight = none) {x : Choice}
    (hx : AnyChoice e st o.holdMask x) : x.egress.Law o := by
  have hclear := h.dropMark_clear hn
  have hbegun := fun c hc => h.currentBegun c hc (EgressScheduler.segmentInFlight_of_none hn)
  cases hx with
  | streamReset hr =>
    obtain ⟨hc, hs⟩ := h.resetFirst (.inl hr)
    exact {
      laneLevels := h.laneLevels
      stackLevels := h.stackLevels
      currentLevel := h.currentLevel
      stackBegun := h.stackBegun
      currentBegun := fun c hc _ => hbegun c hc
      segmentOfCurrent := nofun
      idleSlot := nofun
      dropInFlight := fun hd => by simp [hclear] at hd
      pendingGone := h.pendingGone
      resetFirst := fun _ => ⟨hc, hs⟩
      timersHeld := fun k hk => by
        obtain ⟨-, hpartial⟩ := h.timersHeld k hk
        rcases EgressScheduler.hasPartial_cases hpartial with ⟨y, hy, -⟩ | ⟨y, hy, -⟩
        · simp [hc] at hy
        · simp [hs] at hy
      down := fun hd => absurd hd hup }
  | abort l hr hl =>
    exact {
      laneLevels := h.laneLevels
      stackLevels := h.stackLevels
      currentLevel := h.currentLevel
      stackBegun := h.stackBegun
      currentBegun := fun c hc _ => hbegun c hc
      segmentOfCurrent := nofun
      idleSlot := nofun
      dropInFlight := fun hd => by simp [hclear] at hd
      pendingGone := fun k hk => h.pendingGone k (by rw [held_clearLevel, Bool.and_eq_true] at hk; exact hk.1)
      resetFirst := fun hreset => by simp [hr] at hreset
      timersHeld := fun k hk => by
        obtain ⟨hheld, hpartial⟩ := h.timersHeld k hk
        refine ⟨hheld, ?_⟩
        rcases EgressScheduler.hasPartial_cases hpartial with ⟨y, hy, rfl, -⟩ | ⟨y, hy, rfl⟩
        · exact EgressScheduler.hasPartial_of_current hy hclear rfl
        · exact EgressScheduler.hasPartial_of_stack hy
      down := fun hd => absurd hd hup }
  | idle x hr ha hc hx => exact h.idleChoice hup hr hc ha hx
  | forced c x hr ha hc hh hx => exact (h.push hn hc ha).idleChoice hup hr rfl ha hx
  | preempt c l f rest hr ha hc hp hl hh hf hg => exact (h.push hn hc ha).start st hup hr rfl ha (l := l) hl hf
  | goOn c hr ha hc hh =>
    exact {
      laneLevels := h.laneLevels
      stackLevels := h.stackLevels
      currentLevel := h.currentLevel
      stackBegun := h.stackBegun
      currentBegun := nofun
      segmentOfCurrent := fun g hg => by
        cases hg
        exact ⟨c, hc, rfl, rfl⟩
      idleSlot := nofun
      dropInFlight := fun _ => rfl
      pendingGone := h.pendingGone
      resetFirst := fun hreset => by simp [hr] at hreset
      timersHeld := fun k hk => by
        obtain ⟨hheld, hpartial⟩ := h.timersHeld k hk
        refine ⟨hheld, ?_⟩
        rcases EgressScheduler.hasPartial_cases hpartial with ⟨y, hy, rfl, -⟩ | ⟨y, hy, rfl⟩
        · rw [hc, Option.some.injEq] at hy
          simp [← hy, hh] at hheld
        · exact EgressScheduler.hasPartial_of_stack hy
      down := fun hd => absurd hd hup }

end

/-- A decision event completes the law (R11, R22): with nothing in flight and line-out Up by the choice, else it held already. -/
theorem State.decisionEvent_law {s : State} (h : s.egress.Undecided s.lineOut) : s.decisionEvent.egress.Law s.lineOut := by
  by_cases hn : s.egress.inFlight = none
  · by_cases hup : s.lineOut.state = .down
    · obtain ⟨-, hc, -⟩ := h.down hup
      rw [s.decisionEvent_busy (.inr hup)]
      exact (EgressScheduler.law_iff _ _).2 ⟨h, fun _ => hc⟩
    · rw [s.decisionEvent_choice hn hup]
      exact h.anyChoice hup hn (s.egress.choose_cases s.store s.lineOut.holdMask)
  · rw [s.decisionEvent_busy (.inl hn)]
    exact (EgressScheduler.law_iff _ _).2 ⟨h, fun hnone => absurd hnone hn⟩

/-- A lane insertion (R3, R69). -/
theorem State.insertLanes_law {s : State} (h : s.egress.Law s.lineOut) (released : List ReleasedFrame) :
    (s.insertLanes released).egress.Law s.lineOut := by
  unfold State.insertLanes
  split
  · exact h
  · have hu := h.undecided
    refine State.decisionEvent_law (s := { s with egress := { s.egress with lanes := Vector.ofFn (fun l : Level =>
      s.egress.lanes[l] ++ released.filter (fun f : ReleasedFrame => f.level == l)) } }) ?_
    exact { hu with
      laneLevels := fun l f hf => by
        simp only [Fin.getElem_fin, Vector.getElem_ofFn, Fin.eta, List.mem_append, List.mem_filter] at hf
        rcases hf with hf | ⟨-, hl⟩
        · exact hu.laneLevels l f hf
        · simpa using hl }

end Sys2Proof.Machine
end

section
/-! Every event keeps the scheduler's laws (O6), and the state after reset meets all the laws (O4). -/

namespace Sys2Proof.Machine

open Sys2Proof

/-- The scheduler's laws of a part. -/
def State.SchedulerLaw (s : State) : Prop := s.egress.Law s.lineOut

theorem State.SchedulerLaw.of_same {s t : State} (h : s.SchedulerLaw) (he : t.egress = s.egress) (ho : t.lineOut = s.lineOut) :
    t.SchedulerLaw := by
  unfold State.SchedulerLaw
  rw [he, ho]
  exact h

/-- The laws hold of a line that comes no nearer to Down and keeps its mask. -/
theorem State.SchedulerLaw.of_line {s t : State} (h : s.SchedulerLaw) (he : t.egress = s.egress)
    (hm : t.lineOut.holdMask = s.lineOut.holdMask) (hd : t.lineOut.state = .down → s.lineOut.state = .down) : t.SchedulerLaw := by
  have hs : s.egress.Law s.lineOut := h
  unfold State.SchedulerLaw
  rw [he]
  exact { hs with
    timersHeld := fun l hl => by
      rw [hm]
      exact hs.timersHeld l hl
    down := fun hdown => by
      rw [hm]
      exact hs.down (hd hdown) }

theorem State.SchedulerLaw.decide {s : State} (h : s.egress.Undecided s.lineOut) : s.decisionEvent.SchedulerLaw := State.decisionEvent_law h

theorem State.SchedulerLaw.insert {s : State} (h : s.SchedulerLaw) (released : List ReleasedFrame) : (s.insertLanes released).SchedulerLaw := by
  unfold State.SchedulerLaw
  rw [(s.insertLanes_only released).lineOut]
  exact s.insertLanes_law h released

/-! ## The ticks and the admissions -/

theorem State.SchedulerLaw.sweep {s : State} (h : s.SchedulerLaw) : s.sweep.SchedulerLaw := by
  unfold State.sweep
  dsimp only
  refine State.SchedulerLaw.insert ?_ _
  exact h.of_same rfl rfl

theorem State.SchedulerLaw.takeRequest {s : State} (h : s.SchedulerLaw) (f : FrameRecord) : (s.takeRequest f).SchedulerLaw := by
  have hadmit : (s.admitFrame f).SchedulerLaw := by
    unfold State.admitFrame
    dsimp only
    split
    · exact h.of_same rfl rfl
    · split <;> exact h.of_same rfl rfl
  unfold State.takeRequest
  split
  · unfold State.evaluateFlow
    dsimp only
    refine State.SchedulerLaw.insert ?_ _
    exact hadmit.of_same rfl rfl
  · exact h.of_same rfl rfl

/-- A tick stops no timer and starts none (R38). -/
theorem StallTimer.tick_stopped (x : StallTimer) : x.tick = .stopped ↔ x = .stopped := by
  cases x with
  | stopped => exact Iff.rfl
  | ended => simp [StallTimer.tick]
  | running left =>
    simp only [StallTimer.tick]
    split <;> simp

theorem EgressScheduler.Law.tickTimers {e : EgressScheduler} {o : LineOutReceiver} (h : e.Law o) : e.tickTimers.Law o :=
  { h with
    timersHeld := fun l hl => by
      have hl' : (e.timers[l]).tick ≠ .stopped := by simpa [EgressScheduler.tickTimers] using hl
      exact h.timersHeld l fun hstop => hl' ((StallTimer.tick_stopped _).2 hstop) }

/-! ## Completions -/

section
variable {e : EgressScheduler} {o : LineOutReceiver} (h : e.Undecided o)
include h

/-- The slot emptied, when every timer that runs belongs to a frame of the stack. -/
theorem EgressScheduler.Undecided.clearSlot (ht : ∀ l : Level, e.timers[l] ≠ .stopped → ∃ c ∈ e.stack, c.level = l) :
    e.clearSlot.Undecided o where
  laneLevels := h.laneLevels
  stackLevels := h.stackLevels
  currentLevel := nofun
  stackBegun := h.stackBegun
  currentBegun := nofun
  segmentOfCurrent := nofun
  dropInFlight := nofun
  pendingGone l hl := ⟨(h.pendingGone l hl).1, nofun⟩
  resetFirst hr := by
    rcases hr with hr | hr
    · exact ⟨rfl, (h.resetFirst (.inl hr)).2⟩
    · cases hr
  timersHeld l hl := by
    obtain ⟨c, hc, hlevel⟩ := ht l hl
    exact ⟨(h.timersHeld l hl).1, hlevel ▸ EgressScheduler.hasPartial_of_stack (e := e.clearSlot) hc⟩
  down hd := by
    obtain ⟨-, -, hstack, hpending, hreset, hmask⟩ := h.down hd
    exact ⟨rfl, rfl, hstack, hpending, hreset, hmask⟩

/-- A segment that is not its frame's final one leaves a frame with one more segment sent (R8). -/
theorem EgressScheduler.Undecided.advance {g : Segment} {c : SentFrame} (hg : e.inFlight = some (.segment g)) (hc : e.current = some c)
    (hdrop : e.dropMark = false) (hfinal : g.position.final = false) :
    EgressScheduler.Undecided { e with current := some { c with segmentsSent := c.segmentsSent + 1 }, inFlight := none } o := by
  obtain ⟨x, hx, -, hpos⟩ := h.segmentOfCurrent g hg
  rw [hc, Option.some.injEq] at hx
  subst hx
  have hleft : c.segmentsSent + 1 < blocksOf c.length := by
    rw [hpos] at hfinal
    simp only [positionOf] at hfinal
    split at hfinal
    · simp [Position.final] at hfinal
    · split at hfinal
      · omega
      · split at hfinal
        · omega
        · simp [Position.final] at hfinal
  exact {
    laneLevels := h.laneLevels
    stackLevels := h.stackLevels
    currentLevel := fun x hx t ht => by
      cases hx
      exact h.currentLevel c hc t ht
    stackBegun := h.stackBegun
    currentBegun := fun x hx _ => by
      cases hx
      exact ⟨Nat.succ_pos _, hleft⟩
    segmentOfCurrent := nofun
    dropInFlight := fun hd => by simp [hdrop] at hd
    pendingGone := fun l hl => by
      obtain ⟨hstack, hcur⟩ := h.pendingGone l hl
      refine ⟨hstack, fun x hx hlevel => ?_⟩
      cases hx
      exact hcur c hc hlevel
    resetFirst := fun hr => by
      rcases hr with hr | hr
      · simpa [hc] using (h.resetFirst (.inl hr)).1
      · cases hr
    timersHeld := fun l hl => by
      obtain ⟨hheld, hpartial⟩ := h.timersHeld l hl
      refine ⟨hheld, ?_⟩
      rcases EgressScheduler.hasPartial_cases hpartial with ⟨y, hy, rfl, -⟩ | ⟨y, hy, rfl⟩
      · rw [hc, Option.some.injEq] at hy
        subst hy
        exact EgressScheduler.hasPartial_of_current
          (e := { e with current := some { c with segmentsSent := c.segmentsSent + 1 }, inFlight := none })
          (c := { c with segmentsSent := c.segmentsSent + 1 }) rfl hdrop rfl
      · exact EgressScheduler.hasPartial_of_stack hy
    down := fun hd => by simpa [hc] using (h.down hd).2.1 }

/-- A control symbol that completes leaves the current frame as it was (R10). -/
theorem EgressScheduler.Undecided.completeSymbol (hs : e.segmentInFlight = false) :
    EgressScheduler.Undecided { e with inFlight := none } o :=
  { laneLevels := h.laneLevels
    stackLevels := h.stackLevels
    currentLevel := h.currentLevel
    stackBegun := h.stackBegun
    currentBegun := fun c hc _ => h.currentBegun c hc hs
    segmentOfCurrent := nofun
    dropInFlight := fun hd => by simp [h.dropInFlight hd] at hs
    pendingGone := h.pendingGone
    resetFirst := fun hr => by
      rcases hr with hr | hr
      · exact h.resetFirst (.inl hr)
      · cases hr
    timersHeld := fun l hl => by
      obtain ⟨hheld, hpartial⟩ := h.timersHeld l hl
      refine ⟨hheld, ?_⟩
      rcases EgressScheduler.hasPartial_cases hpartial with ⟨y, hy, rfl, hd, -⟩ | ⟨y, hy, rfl⟩
      · exact EgressScheduler.hasPartial_of_current (e := { e with inFlight := none }) hy hd rfl
      · exact EgressScheduler.hasPartial_of_stack hy
    down := fun hd => by
      obtain ⟨-, hrest⟩ := h.down hd
      exact ⟨rfl, hrest⟩ }

end

/-- A segment's completion, before the choice (R8, R9, R26). -/
theorem State.completeSegment_undecided {s : State} (h : s.SchedulerLaw) {g : Segment} {c : SentFrame}
    (hg : s.egress.inFlight = some (.segment g)) (hc : s.egress.current = some c) :
    (s.completeSegment g c).egress.Undecided s.lineOut := by
  have hu : s.egress.Undecided s.lineOut := EgressScheduler.Law.undecided h
  have hclear (hnone : ∀ l, ¬ ∃ c, s.egress.current = some c ∧ c.level = l ∧ s.egress.dropMark = false ∧ s.egress.finalInFlight = false) :
      s.egress.clearSlot.Undecided s.lineOut :=
    hu.clearSlot fun l hl => (EgressScheduler.hasPartial_cases (hu.timersHeld l hl).2).resolve_left (hnone l)
  unfold State.completeSegment
  split
  · rename_i hdrop
    exact hclear fun l ⟨_, _, _, hd, _⟩ => by simp [hdrop] at hd
  · rename_i hdrop
    split
    · rename_i hfinal
      exact hclear fun l ⟨_, _, _, _, hf⟩ => by simp [EgressScheduler.finalInFlight, hg, hfinal] at hf
    · rename_i hfinal
      exact hu.advance hg hc (by simpa using hdrop) (by simpa using hfinal)

/-! ## The Hold Mask -/

/-- A new mask: every timer left running is one of a level it holds (R35 to R37). -/
theorem State.SchedulerLaw.holdChange {s : State} (h : s.SchedulerLaw) (hup : s.lineOut.state ≠ .down) (mask : BitVec 4) :
    (s.holdChange mask).SchedulerLaw := by
  unfold State.holdChange
  split
  · exact h
  · refine State.SchedulerLaw.decide ?_
    have hu : s.egress.Undecided s.lineOut := EgressScheduler.Law.undecided h
    exact { hu with
      timersHeld := fun l hl => by
        simp only [EgressScheduler.holdTimers, Fin.getElem_fin, Vector.getElem_ofFn, Fin.eta, EgressScheduler.timerAtHold] at hl
        split at hl
        · rename_i hheld
          refine ⟨hheld, ?_⟩
          split at hl
          · rename_i hstart
            simp only [Bool.and_eq_true] at hstart
            exact hstart.1.2
          · exact (hu.timersHeld l hl).2
        · exact absurd rfl hl
      down := fun hd => absurd hd hup }

/-! ## Stall expiries -/

/-- A stream made pending by an expiry, and the decision event (R39, R40). -/
theorem State.stallAbort_law {s : State} {l : Level} (f : Flow)
    (h : EgressScheduler.Undecided { s.egress with pendingAborts := setLevel s.egress.pendingAborts l } s.lineOut) :
    (s.stallAbort l f).SchedulerLaw := State.decisionEvent_law (s := ((({ s with egress :=
      { s.egress with pendingAborts := setLevel s.egress.pendingAborts l } } : State).count .stallAborts).post (.stallAbort l f))) h

/-- The timers after one is stopped. -/
theorem timer_of_set_stopped {timers : Vector StallTimer 4} {l k : Level} (h : (timers.set l .stopped)[k] ≠ .stopped) :
    k ≠ l ∧ timers[k] ≠ .stopped := by
  simp only [Fin.getElem_fin] at h ⊢
  rw [Vector.getElem_set] at h
  split at h
  · exact absurd rfl h
  · rename_i hne
    exact ⟨fun heq => hne (by rw [heq]), h⟩

section
variable {e : EgressScheduler} {o : LineOutReceiver} (h : e.Law o) (l : Level)
include h

/-- The partial frame on the stack given up (R39). -/
theorem EgressScheduler.Law.expireStack {c : SentFrame} (hc : c ∈ e.stack) (hl : c.level = l) :
    EgressScheduler.Undecided { e with
      timers := e.timers.set l .stopped, stack := e.stack.filter (fun c : SentFrame => c.level != l),
      pendingAborts := setLevel e.pendingAborts l } o where
  laneLevels := h.laneLevels
  stackLevels := h.stackLevels.filter _
  currentLevel x hx t ht := h.currentLevel x hx t (List.mem_of_mem_filter ht)
  stackBegun x hx := h.stackBegun x (List.mem_of_mem_filter hx)
  currentBegun := h.currentBegun
  segmentOfCurrent := h.segmentOfCurrent
  dropInFlight := h.dropInFlight
  pendingGone k hk := by
    rw [held_setLevel, Bool.or_eq_true] at hk
    rcases hk with hk | hk
    · obtain ⟨hstack, hcur⟩ := h.pendingGone k hk
      exact ⟨fun x hx => hstack x (List.mem_of_mem_filter hx), hcur⟩
    · have hk : k = l := by simpa using hk
      refine ⟨fun x hx => by simpa [hk] using (List.mem_filter.1 hx).2, fun x hx hlevel => ?_⟩
      have hbelow := h.currentLevel x hx c hc
      rw [hl, hlevel, hk] at hbelow
      exact absurd hbelow (lt_irrefl _)
  resetFirst hr := by
    have hnil := (h.resetFirst hr).2
    simp [hnil] at hc
  timersHeld k hk := by
    obtain ⟨hne, hrun⟩ := timer_of_set_stopped hk
    obtain ⟨hheld, hpartial⟩ := h.timersHeld k hrun
    refine ⟨hheld, ?_⟩
    rcases EgressScheduler.hasPartial_cases hpartial with ⟨y, hy, rfl, hd, hf⟩ | ⟨y, hy, rfl⟩
    · exact EgressScheduler.hasPartial_of_current hy hd hf
    · exact EgressScheduler.hasPartial_of_stack (List.mem_filter.2 ⟨hy, by simpa using hne⟩)
  down hd := by
    obtain ⟨-, -, hnil, -⟩ := h.down hd
    simp [hnil] at hc

/-- What the timers that run on show once the partial frame of a level stands in the slot: they are of the stack's frames. -/
theorem EgressScheduler.Law.running_stack {c : SentFrame} (hc : e.current = some c) (hl : c.level = l) {k : Level} (hne : k ≠ l)
    (hrun : e.timers[k] ≠ .stopped) : held o.holdMask k = true ∧ ∃ t ∈ e.stack, t.level = k := by
  obtain ⟨hheld, hpartial⟩ := h.timersHeld k hrun
  refine ⟨hheld, (EgressScheduler.hasPartial_cases hpartial).resolve_left ?_⟩
  rintro ⟨y, hy, hlevel, -⟩
  rw [hc, Option.some.injEq] at hy
  exact hne (by rw [← hlevel, ← hy, hl])

/-- The stream of the slot's partial frame is of no frame of the stack. -/
theorem EgressScheduler.Law.pendingGone_setLevel {c : SentFrame} (hc : e.current = some c) (hl : c.level = l) {k : Level}
    (hk : held (setLevel e.pendingAborts l) k = true) : (∀ x ∈ e.stack, x.level ≠ k) := by
  rw [held_setLevel, Bool.or_eq_true] at hk
  rcases hk with hk | hk
  · exact (h.pendingGone k hk).1
  · have hk : k = l := by simpa using hk
    intro x hx hlevel
    have hbelow := h.currentLevel c hc x hx
    rw [hl, hlevel, hk] at hbelow
    exact absurd hbelow (lt_irrefl _)

/-- The partial frame in the slot Drop-marked while its segment is in flight (R25, R40); the timers of other levels may run on. -/
theorem EgressScheduler.Law.markCurrent {c : SentFrame} (hc : e.current = some c) (hl : c.level = l) (hs : e.segmentInFlight = true)
    {timers : Vector StallTimer 4} (ht : ∀ k : Level, timers[k] ≠ .stopped → k ≠ l ∧ e.timers[k] ≠ .stopped) :
    EgressScheduler.Law { e with
      timers := timers, dropMark := true, pendingAborts := setLevel e.pendingAborts l } o :=
  { h with
    dropInFlight := fun _ => hs
    pendingGone := fun k hk => ⟨h.pendingGone_setLevel l hc hl hk, fun _ _ _ => rfl⟩
    timersHeld := fun k hk => by
      obtain ⟨hne, hrun⟩ := ht k hk
      obtain ⟨hheld, t, hmem, rfl⟩ := h.running_stack l hc hl hne hrun
      exact ⟨hheld, EgressScheduler.hasPartial_of_stack hmem⟩
    down := fun hd => by
      obtain ⟨-, hnone, -⟩ := h.down hd
      simp [hc] at hnone }

/-- The partial frame in the slot discarded at once, no segment being in flight (R25, R40); the timers of other levels may run on. -/
theorem EgressScheduler.Law.dropCurrent {c : SentFrame} (hc : e.current = some c) (hl : c.level = l) (hs : e.segmentInFlight = false)
    {timers : Vector StallTimer 4} (ht : ∀ k : Level, timers[k] ≠ .stopped → k ≠ l ∧ e.timers[k] ≠ .stopped) :
    EgressScheduler.Law { e with
      timers := timers, current := none, pendingAborts := setLevel e.pendingAborts l } o :=
  { h with
    currentLevel := nofun
    currentBegun := nofun
    segmentOfCurrent := fun g hg => by
      have hg : e.inFlight = some (.segment g) := hg
      simp [EgressScheduler.segmentInFlight, hg] at hs
    idleSlot := fun _ => rfl
    pendingGone := fun k hk => ⟨h.pendingGone_setLevel l hc hl hk, nofun⟩
    resetFirst := fun hr => ⟨rfl, (h.resetFirst hr).2⟩
    timersHeld := fun k hk => by
      obtain ⟨hne, hrun⟩ := ht k hk
      obtain ⟨hheld, t, hmem, rfl⟩ := h.running_stack l hc hl hne hrun
      exact ⟨hheld, EgressScheduler.hasPartial_of_stack hmem⟩
    down := fun hd => by
      obtain ⟨-, hnone, -⟩ := h.down hd
      simp [hc] at hnone }

/-- A timer stopped, and nothing else. -/
theorem EgressScheduler.Law.stopTimer : EgressScheduler.Law { e with timers := e.timers.set l .stopped } o :=
  { h with timersHeld := fun k hk => h.timersHeld k (timer_of_set_stopped hk).2 }

end

/-- A partial frame in the slot is the current frame, neither Drop-marked nor sending its final segment (R35). -/
theorem EgressScheduler.partialCurrent_eq_some {e : EgressScheduler} {c : SentFrame} (h : e.partialCurrent = some c) :
    e.current = some c ∧ e.dropMark = false ∧ e.finalInFlight = false := by
  unfold EgressScheduler.partialCurrent at h
  split at h
  · cases h
  · rename_i hclear
    simp only [Bool.or_eq_true, not_or, Bool.not_eq_true] at hclear
    exact ⟨h, hclear⟩

/-- The expiry of a stall timer (R39, R40). -/
theorem State.SchedulerLaw.expireTimer {s : State} (h : s.SchedulerLaw) (l : Level) : (s.expireTimer l).SchedulerLaw := by
  have hs : s.egress.Law s.lineOut := h
  unfold State.expireTimer
  dsimp only
  split
  · rename_i c hfind
    have hlevel : c.level = l := by simpa using List.find?_some hfind
    exact State.stallAbort_law _ (hs.expireStack l (List.mem_of_find?_eq_some hfind) hlevel)
  · split
    · rename_i c hpartial
      obtain ⟨hc, -⟩ := EgressScheduler.partialCurrent_eq_some hpartial
      split
      · rename_i hlevel
        split
        · rename_i hsegment
          exact State.stallAbort_law _ (hs.markCurrent l hc hlevel hsegment fun _ => timer_of_set_stopped).undecided
        · rename_i hsegment
          have hsegment : s.egress.segmentInFlight = false := Bool.not_eq_true _ ▸ hsegment
          exact State.stallAbort_law _ (hs.dropCurrent l hc hlevel hsegment fun _ => timer_of_set_stopped).undecided
      · exact hs.stopTimer l
    · exact hs.stopTimer l

/-! ## Line-out going Down, and Restart Traffic -/

/-- Line-out going Down leaves a scheduler with nothing begun (R45). -/
theorem State.SchedulerLaw.egressDown {s u : State} (h : s.SchedulerLaw) (hu : u.egress = s.egress)
    (ho : u.lineOut = { state := .down, holdMask := 0 }) : u.egressDown.SchedulerLaw := by
  have hs : s.egress.Law s.lineOut := h
  have hstopped (l : Level) : (Vector.replicate 4 StallTimer.stopped)[l] = .stopped := by simp
  unfold State.SchedulerLaw
  exact {
    laneLevels := by
      show ∀ l : Level, ∀ f ∈ u.egress.lanes[l], f.level = l
      rw [hu]
      exact hs.laneLevels
    stackLevels := List.Pairwise.nil
    currentLevel := nofun
    stackBegun := nofun
    currentBegun := nofun
    segmentOfCurrent := nofun
    idleSlot := fun _ => rfl
    dropInFlight := nofun
    pendingGone := fun l _ => ⟨nofun, nofun⟩
    resetFirst := fun _ => ⟨rfl, rfl⟩
    timersHeld := fun l hl => absurd (hstopped l) hl
    down := fun _ => ⟨rfl, rfl, rfl, rfl, rfl, congrArg LineOutReceiver.holdMask ho⟩ }

/-- The streams of a stack join the pending-abort set (R24). -/
theorem held_foldl_setLevel (stack : List SentFrame) (m : BitVec 4) (k : Level)
    (h : held (stack.foldl (fun m (c : SentFrame) => setLevel m c.level) m) k = true) : held m k = true ∨ ∃ c ∈ stack, c.level = k := by
  induction stack generalizing m with
  | nil => exact .inl h
  | cons c rest ih =>
    rcases ih _ h with hm | ⟨x, hx, hlevel⟩
    · rw [held_setLevel, Bool.or_eq_true] at hm
      rcases hm with hm | hm
      · exact .inl hm
      · exact .inr ⟨c, List.mem_cons_self .., (eq_of_beq hm).symm⟩
    · exact .inr ⟨x, List.mem_cons_of_mem _ hx, hlevel⟩

theorem State.SchedulerLaw.restartLanesAndStack {s : State} (h : s.SchedulerLaw) : s.restartLanesAndStack.SchedulerLaw := by
  have hs : s.egress.Law s.lineOut := h
  have hstopped (l : Level) : (Vector.replicate 4 StallTimer.stopped)[l] = .stopped := by simp
  unfold State.SchedulerLaw
  exact { hs with
    laneLevels := fun l f hf => by
      have hempty : (Vector.replicate 4 ([] : List ReleasedFrame))[l] = [] := by simp
      exact absurd (hempty ▸ hf) List.not_mem_nil
    stackLevels := List.Pairwise.nil
    currentLevel := fun _ _ => nofun
    stackBegun := nofun
    pendingGone := fun k hk => by
      refine ⟨nofun, fun c hc hlevel => ?_⟩
      rcases held_foldl_setLevel s.egress.stack s.egress.pendingAborts k hk with hk | ⟨t, ht, htlevel⟩
      · exact (hs.pendingGone k hk).2 c hc hlevel
      · have hbelow := hs.currentLevel c hc t ht
        rw [hlevel, htlevel] at hbelow
        exact absurd hbelow (lt_irrefl _)
    resetFirst := fun hr => ⟨(hs.resetFirst hr).1, rfl⟩
    timersHeld := fun l hl => absurd (hstopped l) hl
    down := fun hd => by
      obtain ⟨hflight, hcurrent, hstack, hpending, hreset, hmask⟩ := hs.down hd
      refine ⟨hflight, hcurrent, rfl, ?_, hreset, hmask⟩
      show s.egress.stack.foldl _ s.egress.pendingAborts = 0
      rw [hstack]
      exact hpending }

theorem State.SchedulerLaw.restartCurrent {s : State} (h : s.SchedulerLaw) (ht : ∀ l : Level, s.egress.timers[l] = .stopped) :
    s.restartCurrent.SchedulerLaw := by
  have hs : s.egress.Law s.lineOut := h
  unfold State.restartCurrent
  dsimp only
  split
  · exact h
  · rename_i c hpartial
    obtain ⟨hc, -⟩ := EgressScheduler.partialCurrent_eq_some hpartial
    have hnone : ∀ k : Level, s.egress.timers[k] ≠ .stopped → k ≠ c.level ∧ s.egress.timers[k] ≠ .stopped := fun k hk => absurd (ht k) hk
    split
    · rename_i hsegment
      exact hs.markCurrent c.level hc rfl hsegment hnone
    · rename_i hsegment
      exact hs.dropCurrent c.level hc rfl (by simpa using hsegment) hnone

theorem State.SchedulerLaw.restartEgress {s : State} (h : s.SchedulerLaw) : s.restartEgress.SchedulerLaw := by
  have hstopped (l : Level) : (Vector.replicate 4 StallTimer.stopped)[l] = .stopped := by simp
  have hall : s.restartLanesAndStack.restartCurrent.SchedulerLaw :=
    h.restartLanesAndStack.restartCurrent hstopped
  unfold State.restartEgress
  dsimp only
  split
  · exact hall
  · exact State.SchedulerLaw.decide (EgressScheduler.Law.undecided hall)

/-! ## The reset -/

theorem State.powerUp_schedulerLaw (straps : BitVec 4) : (State.powerUp straps).SchedulerLaw where
  laneLevels l f hf := by simp [State.powerUp, EgressScheduler.powerUp] at hf
  stackLevels := List.Pairwise.nil
  currentLevel := nofun
  stackBegun := nofun
  currentBegun := nofun
  segmentOfCurrent := nofun
  idleSlot _ := rfl
  dropInFlight := nofun
  pendingGone _ _ := ⟨nofun, nofun⟩
  resetFirst _ := ⟨rfl, rfl⟩
  timersHeld l hl := by simp [State.powerUp, EgressScheduler.powerUp] at hl
  down _ := ⟨rfl, rfl, rfl, rfl, rfl, rfl⟩

/-! ## Every row -/

/-- A report on line-out receive moves the line between states that are Up, and leaves the mask (R152, R153). -/
theorem exec_returns_line {c : Instr}
    (hc : c = .returnStartDelimiter ∨ (∃ b, c = .returnByte b) ∨ c = .returnEndDelimiter ∨ c = .returnErrorSymbol) {s t : State}
    (h : exec c s = .next t) : t.lineOut.holdMask = s.lineOut.holdMask ∧ (t.lineOut.state = .down → s.lineOut.state = .down) := by
  rcases hc with rfl | ⟨b, rfl⟩ | rfl | rfl
  · simp only [exec, execReturnStartDelimiter, State.takePlace, Host.Outcome.next.injEq] at h
    subst h
    repeat' split
    all_goals exact ⟨rfl, by simp_all [State.setLineOutState]⟩
  · simp only [exec, execReturnByte, Host.Outcome.next.injEq] at h
    subst h
    repeat' split
    all_goals exact ⟨rfl, by simp_all [State.setLineOutState, State.storeReturn, State.setBuffer]⟩
  · simp only [exec, execReturnEndDelimiter, Host.Outcome.next.injEq] at h
    subst h
    repeat' split
    all_goals exact ⟨rfl, by simp_all [State.setLineOutState]⟩
  · simp only [exec, execReturnErrorSymbol, Host.Outcome.next.injEq] at h
    subst h
    split
    all_goals exact ⟨rfl, by simp_all [State.setLineOutState]⟩

/-- One command keeps the scheduler's laws. -/
theorem exec_schedulerLaw {c : Instr} {s t : State} (h : exec c s = .next t) (hs : s.SchedulerLaw) : t.SchedulerLaw := by
  have same {u : State} (hu : t = u) (he : u.egress = s.egress) (ho : u.lineOut = s.lineOut) : t.SchedulerLaw := by
    rw [hu]
    exact hs.of_same he ho
  have reception (k : ReceptionOnly s t ∧ (t.lineIn.state = .down ↔ s.lineIn.state = .down)) : t.SchedulerLaw :=
    hs.of_same k.1.egress k.1.lineOut
  have returns {u : State} (hu : t = u) (he : u.egress = s.egress)
      (k : t.lineOut.holdMask = s.lineOut.holdMask ∧ (t.lineOut.state = .down → s.lineOut.state = .down)) : t.SchedulerLaw :=
    hs.of_line (by rw [hu, he]) k.1 k.2
  induction c using Instr.byRows with
  | answered c hc =>
    obtain ⟨-, -, -, -, -, -, he, ho, -⟩ := answeredRow_frame c hc s t h
    exact hs.of_same he ho
  | powerUpReset straps =>
    rw [exec_powerUpReset s t h]
    exact (State.powerUp_schedulerLaw straps).of_same rfl rfl
  | lineInStartDelimiter => exact reception (frame_reception s t _ (by simp) h)
  | lineInByte b => exact reception (frame_reception s t (.lineInByte b) (by simp) h)
  | lineInEndDelimiter => exact reception (frame_reception s t _ (by simp) h)
  | lineInErrorSymbol => exact reception (frame_reception s t _ (by simp) h)
  | lineInComesUp => exact same (frame_lineInComesUp s t h) rfl rfl
  | lineInGoesDown => exact same (frame_lineInGoesDown s t h) rfl rfl
  | restartAtLineIn => exact same (frame_restartAtLineIn s t h) rfl rfl
  | holdSymbol arg =>
    simp only [exec, execHoldSymbol, Host.Outcome.next.injEq] at h
    subst h
    split
    · split
      · rename_i hup
        exact hs.holdChange (by simpa [LineOutReceiver.up] using hup) _
      · exact hs
    · exact hs
  | receivedSymbol symbol arg =>
    simp only [exec, execReceivedAbortOrStreamReset, Host.Outcome.next.injEq] at h
    exact same h.symm rfl rfl
  | returnStartDelimiter => exact returns (frame_returns s t .returnStartDelimiter (by simp) h) rfl (exec_returns_line (by simp) h)
  | returnByte b => exact returns (frame_returns s t (.returnByte b) (by simp) h) rfl (exec_returns_line (c := .returnByte b) (by simp) h)
  | returnEndDelimiter => exact returns (frame_returns s t .returnEndDelimiter (by simp) h) rfl (exec_returns_line (by simp) h)
  | returnErrorSymbol => exact returns (frame_returns s t .returnErrorSymbol (by simp) h) rfl (exec_returns_line (by simp) h)
  | lineOutComesUp =>
    simp only [exec, execLineOutComesUp, Host.Outcome.next.injEq] at h
    subst h
    split
    · exact hs
    · refine State.SchedulerLaw.decide ?_
      have hu : s.egress.Undecided s.lineOut := EgressScheduler.Law.undecided hs
      exact { hu with down := nofun }
  | lineOutGoesDown =>
    simp only [exec, execLineOutGoesDown, Host.Outcome.next.injEq] at h
    subst h
    split
    · have hlose : s.loseReturn.egress = s.egress := by
        unfold State.loseReturn
        split <;> rfl
      exact hs.egressDown (u := { s.loseReturn.post (.lineState .lineOut) with lineOut := { state := .down, holdMask := 0 } }) hlose rfl
    · exact hs
  | segmentCompletion =>
    simp only [exec, execSegmentCompletion, Host.Outcome.next.injEq] at h
    subst h
    split
    · rename_i g c hg hc
      refine State.SchedulerLaw.decide ?_
      have hline : (s.completeSegment g c).lineOut = s.lineOut := by
        unfold State.completeSegment
        repeat' split
        all_goals rfl
      rw [hline]
      exact State.completeSegment_undecided hs hg hc
    · exact hs
  | controlSymbolCompletion =>
    have hu : s.egress.Undecided s.lineOut := EgressScheduler.Law.undecided hs
    simp only [exec, execControlSymbolCompletion, Host.Outcome.next.injEq] at h
    subst h
    split
    · rename_i hflight
      refine State.SchedulerLaw.decide ?_
      exact hu.completeSymbol (by simp [EgressScheduler.segmentInFlight, hflight])
    · rename_i hflight
      refine State.SchedulerLaw.decide ?_
      exact hu.completeSymbol (by simp [EgressScheduler.segmentInFlight, hflight])
    · exact hs
  | tickExpiry =>
    simp only [exec, execTickExpiry, Host.Outcome.next.injEq] at h
    subst h
    have hsweep : s.countTick.sweep.SchedulerLaw := State.SchedulerLaw.sweep (hs.of_same rfl rfl)
    generalize s.countTick.sweep = u at hsweep ⊢
    exact EgressScheduler.Law.tickTimers hsweep
  | stallTimerExpiry l =>
    simp only [exec, execStallTimerExpiry, Host.Outcome.next.injEq] at h
    subst h
    split
    · exact hs.expireTimer l
    · exact hs
  | contextChange c f hf => exact same (frame_contextChange s t c f hf h) rfl rfl
  | admissionRequest =>
    simp only [exec, execAdmissionRequest, Host.Outcome.next.injEq] at h
    subst h
    split
    · exact hs
    · refine State.SchedulerLaw.takeRequest ?_ _
      exact hs.of_same rfl rfl
  | returnMergeChoice => exact same (frame_returnMergeChoice s t h) rfl rfl
  | transmissionCompletion => exact same (frame_transmissionCompletion s t h) rfl rfl
  | jobItemCompletion => exact same (frame_jobItemCompletion s t h) rfl rfl
  | restartTraffic => exact same (frame_restartTraffic s t h) rfl rfl
  | restartAtPacing => exact same (frame_restartAtPacingUnit s t h).1 rfl rfl
  | restartAtEgress =>
    simp only [exec, execRestartAtEgressScheduler, Host.Outcome.next.injEq] at h
    subst h
    split
    · refine State.SchedulerLaw.restartEgress ?_
      exact hs.of_same rfl rfl
    · exact hs
  | restartCompletion => exact same (frame_restartCompletion s t h) rfl rfl

/-- Settles O6: every event leaves a scheduler that is undecided at most in its slot, and its decision event settles the slot. -/
theorem stepKeepsSchedulerLaw : Obligations.StepKeepsSchedulerLaw := fun _ _ hs h =>
  step_keeps (P := State.SchedulerLaw) (fun _ _ hs => hs.of_same rfl rfl) (fun _ _ _ => exec_schedulerLaw) h hs

/-- Settles O4: law by law, the power-up state's instance. -/
theorem resetMeetsEveryLaw : Obligations.ResetMeetsEveryLaw :=
  ⟨State.powerUp_blocksOnce 0, State.powerUp_memoryLaw 0, State.powerUp_schedulerLaw 0, State.powerUp_planLaw 0,
    State.powerUp_settingsLaw 0, State.powerUp_queueLaw 0, ⟨List.nodup_nil, nofun⟩, State.powerUp_receptionLaw 0,
    State.powerUp_returnLaw 0⟩

end Sys2Proof.Machine
end

section
/-! Reception: the delimiters, the bytes that join the frame, its check, and the classification of its header (O11 to O15). -/

namespace Sys2Proof.Machine

open Sys2Proof

section
variable (s : State)

/-! ## The reports of the decoder, by the receiver's state -/

theorem exec_lineInEndDelimiter_inFrame (h : s.lineIn.state.inFrame = true) : exec .lineInEndDelimiter s = .next s.endFrame := by
  simp only [exec, execLineInEndDelimiter, h, if_true]

/-- With a frame in reception a Start delimiter first ends it marked bad (R92). -/
theorem exec_lineInStartDelimiter_inFrame (h : s.lineIn.state.inFrame = true) :
    exec .lineInStartDelimiter s = .next (s.setLineIn { s.lineIn with bad := true }).endFrame.beginFrame := by
  cases hs : s.lineIn.state with
  | down => simp [hs, LineInState.inFrame] at h
  | idle => simp [hs, LineInState.inFrame] at h
  | header => simp only [exec, execLineInStartDelimiter, hs]
  | keep => simp only [exec, execLineInStartDelimiter, hs]
  | drain => simp only [exec, execLineInStartDelimiter, hs]

/-- A byte that is neither classified nor presented joins the frame (R92, R93). -/
theorem exec_lineInByte_joins (b : Byte) (h : s.lineIn.state = .drain ∨ (s.lineIn.state = .header ∧ s.lineIn.byteCount + 1 ≠ 4)) :
    exec (.lineInByte b) s = .next { s with lineIn := s.lineIn.take b } := by
  rcases h with hs | ⟨hs, hcount⟩
  · simp only [exec, execLineInByte, hs, State.setLineIn]
  · simp only [exec, execLineInByte, hs, State.setLineIn, LineInReceiver.take_byteCount, if_neg hcount]

/-- The fourth byte is followed by the classification of the header (R94). -/
theorem exec_lineInByte_fourth (b : Byte) (hs : s.lineIn.state = .header) (hcount : s.lineIn.byteCount = 3) :
    exec (.lineInByte b) s = .next (s.setLineIn (s.lineIn.take b)).classify := by
  simp only [exec, execLineInByte, hs, State.setLineIn, LineInReceiver.take_byteCount, hcount, if_true]

end

/-- Settles O11, by the receiver's state. -/
theorem lineInStartDelimiterBeginsAFrame : Obligations.LineInStartDelimiterBeginsAFrame := by
  intro s
  refine ⟨fun hidle => ?_, fun hframe => ?_, fun hdown => ?_⟩
  · simp only [exec, execLineInStartDelimiter, hidle]
    rfl
  · refine ⟨(s.setLineIn { s.lineIn with bad := true }).endFrame, ?_, exec_lineInStartDelimiter_inFrame s hframe⟩
    exact exec_lineInEndDelimiter_inFrame (s.setLineIn { s.lineIn with bad := true }) hframe
  · simp only [exec, execLineInStartDelimiter, hdown]

/-- Settles O12: the receiver after the byte is `LineInReceiver.take`. -/
theorem reportsJoinTheFrameInReception : Obligations.ReportsJoinTheFrameInReception := by
  intro s b
  refine ⟨fun hstate => ?_, fun hstate => ?_, ?_⟩
  · refine ⟨s.lineIn.take b, exec_lineInByte_joins s b hstate, s.lineIn.take_byteCount b, ?_, s.lineIn.take_header b,
      s.lineIn.take_part b, fun oldest rest hh h3 => s.lineIn.take_full oldest b rest hh h3⟩
    rw [LineInReceiver.take_frame]
  · rcases hstate with hs | hs
    · simp [exec, execLineInByte, execLineInEndDelimiter, hs, LineInState.inFrame]
    · simp [exec, execLineInByte, execLineInEndDelimiter, hs, LineInState.inFrame]
  · cases hs : s.lineIn.state with
    | down => simp [exec, execLineInErrorSymbol, hs, LineInState.inFrame]
    | idle => simp [exec, execLineInErrorSymbol, hs, LineInState.inFrame]
    | header => simp [exec, execLineInErrorSymbol, hs, LineInState.inFrame, State.setLineIn]
    | keep => simp [exec, execLineInErrorSymbol, hs, LineInState.inFrame, State.setLineIn]
    | drain => simp [exec, execLineInErrorSymbol, hs, LineInState.inFrame, State.setLineIn]

/-! ## The hold-back and the check (R93, R177) -/

/-- A receiver in which exactly these bytes of a frame have arrived. -/
structure LineInReceiver.Arrived (r : LineInReceiver) (bytes : List Byte) : Prop where
  byteCount : r.byteCount = bytes.length
  holdBack : r.holdBack = bytes.drop (bytes.length - 4)
  header : r.header = bytes.take 4
  crc : r.crc = crc32Register (bytes.take (bytes.length - 4))
  bad : r.bad = false

theorem LineInReceiver.arrived_empty (state : LineInState) : (LineInReceiver.empty state).Arrived [] := ⟨rfl, rfl, rfl, rfl, rfl⟩

/-- A byte enters the CRC register behind the others (R177). -/
theorem crc32Register_concat (bytes : List Byte) (b : Byte) : crc32Register (bytes ++ [b]) = crc32Byte (crc32Register bytes) b := by
  simp [crc32Register]

/-- One byte more has arrived: below four it is held back, from four on the oldest goes into the CRC (R93). -/
theorem LineInReceiver.Arrived.take {r : LineInReceiver} {bytes : List Byte} (h : r.Arrived bytes) (b : Byte) :
    (r.take b).Arrived (bytes ++ [b]) := by
  have hcount : (r.take b).byteCount = (bytes ++ [b]).length := by simp [h.byteCount]
  have hheader : (r.take b).header = (bytes ++ [b]).take 4 := by
    rw [LineInReceiver.take_header, h.header, List.length_take, List.take_append]
    split
    · rename_i hlt
      rw [List.take_of_length_le (l := [b]) (by simp; omega)]
    · rename_i hlt
      have hzero : 4 - bytes.length = 0 := by omega
      simp [hzero]
  have hbad : (r.take b).bad = false := by rw [LineInReceiver.take_bad, h.bad]
  by_cases hlen : bytes.length < 4
  · have hzero : bytes.length - 4 = 0 := by omega
    have hzero' : (bytes ++ [b]).length - 4 = 0 := by simp; omega
    obtain ⟨hhold, hcrc⟩ := r.take_part b (by rw [h.holdBack, List.length_drop]; omega)
    refine ⟨hcount, ?_, hheader, ?_, hbad⟩
    · rw [hhold, h.holdBack, hzero, hzero', List.drop_zero, List.drop_zero]
    · rw [hcrc, h.crc, hzero, hzero', List.take_zero, List.take_zero]
  · have hlt : bytes.length - 4 < bytes.length := by omega
    have hnext : (bytes ++ [b]).length - 4 = bytes.length - 4 + 1 := by simp; omega
    have hsplit : bytes.drop (bytes.length - 4) = bytes[bytes.length - 4] :: bytes.drop (bytes.length - 4 + 1) :=
      List.drop_eq_getElem_cons hlt
    obtain ⟨hhold, hcrc⟩ := r.take_full bytes[bytes.length - 4] b (bytes.drop (bytes.length - 4 + 1)) (h.holdBack.trans hsplit)
      (by rw [List.length_drop]; omega)
    refine ⟨hcount, ?_, hheader, ?_, hbad⟩
    · rw [hhold, hnext, List.drop_append_of_le_length hlt]
    · rw [hcrc, h.crc, hnext, List.take_append_of_le_length hlt, List.take_add_one, List.getElem?_eq_getElem hlt, Option.toList_some,
        crc32Register_concat]

theorem LineInReceiver.arrived_foldl (bytes : List Byte) :
    (bytes.foldl LineInReceiver.take (LineInReceiver.empty .header)).Arrived bytes := by
  induction bytes using List.reverseRecOn with
  | nil => exact LineInReceiver.arrived_empty .header
  | append_singleton bytes b ih =>
    rw [List.foldl_append]
    exact ih.take b

/-- Four bytes are read as a word exactly when they are the word's, most significant first. -/
theorem word32Of_eq_some (bytes : List Byte) (w : Word32) : word32Of bytes = some w ↔ bytes = be32 w := by
  match bytes with
  | [] => simp [word32Of, be32]
  | [_] => simp [word32Of, be32]
  | [_, _] => simp [word32Of, be32]
  | [_, _, _] => simp [word32Of, be32]
  | [x, y, z, v] =>
    simp only [word32Of, be32, Option.some.injEq, List.cons.injEq, and_true]
    constructor
    · rintro rfl
      refine ⟨?_, ?_, ?_, ?_⟩ <;> grind
    · rintro ⟨rfl, rfl, rfl, rfl⟩
      rw [BitVec.extractLsb'_append_extractLsb'_eq_extractLsb' (by decide),
        BitVec.extractLsb'_append_extractLsb'_eq_extractLsb' (by decide),
        BitVec.extractLsb'_append_extractLsb'_eq_extractLsb' (by decide)]
      exact BitVec.extractLsb'_eq_self
  | _ :: _ :: _ :: _ :: _ :: _ => simp [word32Of, be32]

/-- A byte enters the CRC-32 register most significant bit first (R177). -/
theorem crc32Byte_eq (c : Word32) (b : Byte) :
    crc32Byte c b = Nat.iterate (fun c : Word32 => if c.getLsbD 31 then (c <<< 1) ^^^ 0x04C11DB7#32 else c <<< 1) 8 (c ^^^ (b ++ 0#24)) := by
  have hbyte : b.zeroExtend 32 <<< 24 = b ++ 0#24 := by decide +revert
  have hbit : crc32Bit = fun c : Word32 => if c.getLsbD 31 then (c <<< 1) ^^^ 0x04C11DB7#32 else c <<< 1 := by
    funext c
    rw [crc32Bit, BitVec.msb_eq_getLsbD_last]
  rw [crc32Byte, hbyte, hbit]

/-- Settles O13, by induction on the bytes: what has arrived is known of the receiver, and the check compares it. -/
theorem holdBackHoldsTheFrameCheck : Obligations.HoldBackHoldsTheFrameCheck := by
  rintro bytes r rfl
  have h := LineInReceiver.arrived_foldl bytes
  refine ⟨h.byteCount, h.holdBack, h.header, h.crc, ?_, rfl, rfl, rfl, fun b => ?_⟩
  · rw [LineInReceiver.checkGood, h.bad, h.byteCount, h.holdBack, h.crc]
    simp only [Bool.not_false, Bool.true_and, Bool.and_eq_true, decide_eq_true_eq, beq_iff_eq, word32Of_eq_some, frameCheck]
  · rw [crc32Register_concat, crc32Byte_eq]

/-! ## Classification (R80, R94 to R97) -/

/-- Settles O14: the label is the Management Label, and the Inbox has a place or has none. -/
theorem managementHeaderTakesAnInboxPlace : Obligations.ManagementHeaderTakesAnInboxPlace := by
  rintro s b r hs hcount rfl hlabel
  rw [exec_lineInByte_fourth s b hs hcount]
  have hclassify : (s.setLineIn (s.lineIn.take b)).classify =
      (s.setLineIn (s.lineIn.take b)).classifyManagement (s.lineIn.take b).label := if_pos hlabel
  rw [hclassify, State.classifyManagement]
  exact congrArg Host.Outcome.next (if_congr Iff.rfl rfl rfl)

section
variable {s : State} (hlabel : s.lineIn.label ≠ s.settings.managementLabel)
include hlabel

theorem State.classify_mapped {f : Flow} (h : mapLookup s.plan.activeBank.map s.lineIn.label = some f) :
    s.classify = s.classifyForward s.lineIn.label f := by
  simp only [State.classify, if_neg hlabel, h]

theorem State.classify_unmapped (h : mapLookup s.plan.activeBank.map s.lineIn.label = none) :
    s.classify = s.classifyUnmapped s.lineIn.label := by
  simp only [State.classify, if_neg hlabel, h]

end

/-- Settles O15: the map names a flow, or the Unmapped Policy decides. -/
theorem forwardHeaderIsClassified : Obligations.ForwardHeaderIsClassified := by
  rintro s b r hs hcount rfl hlabel hsorted kept
  rw [exec_lineInByte_fourth s b hs hcount]
  refine ⟨fun f hf => congrArg Host.Outcome.next ?_, fun hnone => congrArg Host.Outcome.next ?_⟩
  · exact State.classify_mapped (s := s.setLineIn (s.lineIn.take b)) hlabel (mapLookup_mem _ _ _ hsorted hf)
  · exact (State.classify_unmapped (s := s.setLineIn (s.lineIn.take b)) hlabel ((mapLookup_none _ _).2 hnone)).trans
      (if_congr Iff.rfl rfl rfl)

end Sys2Proof.Machine
end

section
/-! Reception in Keep: the byte presented is stored, opens a block, or is over-length (O16 to O18). -/

namespace Sys2Proof.Machine

open Sys2Proof

section
variable (s : State) {c : Classification} (k : Nat) (o : Byte)

/-! ## The byte presented (R79, R93, R96) -/

theorem State.presentByte_forward (hc : s.classifier = some c) {f : Flow} {cls : ReserveClass} (hk : c.kind = .forward f cls) :
    s.presentByte k o = s.presentForward f cls k o := by
  simp only [State.presentByte, hc, hk]

theorem State.presentByte_management (hc : s.classifier = some c) (hk : c.kind = .management) :
    s.presentByte k o = s.presentManagement k o := by
  simp only [State.presentByte, hc, hk]

variable (f : Flow) (cls : ReserveClass)

theorem State.presentForward_header (hk : k < 4) : s.presentForward f cls k o = s := if_pos hk

/-- Byte 4 and the bytes 64, 128, ... 960 open a block; byte 4 brings the header with it (R79). -/
theorem State.presentForward_opens (hk : k = 4 ∨ (64 ≤ k ∧ k < 1024 ∧ k % 64 = 0)) :
    s.presentForward f cls k o = s.requestBlock f cls (if k = 4 then s.lineIn.header ++ [o] else [o]) := by
  rcases hk with rfl | ⟨hlow, hhigh, hzero⟩
  · rfl
  · rw [State.presentForward, if_neg (by omega), if_neg (by omega), if_neg (by omega), if_pos hzero, if_neg (by omega)]

theorem State.presentForward_stores (hlow : 4 < k) (hhigh : k < 1024) (hopen : k % 64 ≠ 0) {last : BlockNo}
    (hlast : s.lineIn.chain.getLast? = some last) :
    s.presentForward f cls k o = { s with store := s.store.write last (k % 64) [o] } := by
  rw [State.presentForward, if_neg (by omega), if_neg (by omega), if_neg (by omega), if_neg hopen]
  simp only [hlast]

theorem State.presentForward_overrun (hk : 1024 ≤ k) : s.presentForward f cls k o = s.overrun := by
  rw [State.presentForward, if_neg (by omega), if_neg (by omega), if_pos hk]

theorem State.presentManagement_overrun (hk : 256 ≤ k) : s.presentManagement k o = s.overrun := if_pos hk

theorem State.presentManagement_stores (hk : k < 256) :
    s.presentManagement k o = { s with agent := { s.agent with
      inbox := s.agent.inbox.map (fun e => if e.complete then e else { e with bytes := e.bytes ++ [o] }) } } :=
  if_neg (by omega)

end

/-- A byte in Keep with a full hold-back, as the row that runs it (R93). -/
theorem exec_lineInByte_presents {s : State} {b o x y z : Byte} {k : Nat} (hs : s.lineIn.state = .keep)
    (hh : s.lineIn.holdBack = [o, x, y, z]) (hk : s.lineIn.byteCount = k + 4) :
    exec (.lineInByte b) s = .next ((s.setLineIn (s.lineIn.take b)).presentByte k o) :=
  exec_lineInByte_keep s b o x y z k hs hh hk

/-- Settles O16: what is presented is written at its place, and a write is read back there alone. -/
theorem presentedByteIsStored : Obligations.PresentedByteIsStored := by
  intro s b o x y z c k hs hh hc hk
  have hpresent := exec_lineInByte_presents (b := b) hs hh hk
  have hc : (s.setLineIn (s.lineIn.take b)).classifier = some c := hc
  refine ⟨fun f cls last hkind hlow hhigh hopen hlast => ?_, fun f cls hkind hlow => ?_, fun hkind hlow => ?_⟩
  · refine ⟨memWrite s.store.mem (blockAddress last (k % 64)) o, ?_, fun a => memRead_memWrite ..⟩
    have hchain : (s.setLineIn (s.lineIn.take b)).lineIn.chain.getLast? = some last := by
      rw [← hlast]
      exact congrArg List.getLast? (s.lineIn.take_chain b)
    rw [hpresent, State.presentByte_forward _ k o hc hkind, State.presentForward_stores _ k o f cls hlow hhigh hopen hchain]
    rfl
  · rw [hpresent, State.presentByte_forward _ k o hc hkind, State.presentForward_header _ k o f cls hlow]
    rfl
  · rw [hpresent, State.presentByte_management _ k o hc hkind, State.presentManagement_stores _ k o hlow]
    rfl

/-! ## Block requests (R77, R81, R82) -/

theorem FrameStore.allocate_granted (st : FrameStore) {cls : ReserveClass} {floor : Nat} {blk : BlockNo} {rest : List BlockNo}
    (hfree : st.free = blk :: rest) (hgrant : cls = .class0 ∨ floor < st.free.length) :
    st.allocate cls floor = some (blk, { st with free := rest }) := by
  rcases st.allocate_cases cls floor with ⟨b, r, hb, -, halloc⟩ | ⟨hnone | ⟨hcls, hle⟩, -⟩
  · rw [hfree, List.cons.injEq] at hb
    rw [halloc, hb.1, hb.2]
  · simp [hfree] at hnone
  · rcases hgrant with hgrant | hgrant
    · simp [hcls] at hgrant
    · omega

theorem FrameStore.allocate_refused (st : FrameStore) {cls : ReserveClass} {floor : Nat}
    (h : st.free = [] ∨ (cls = .class1 ∧ st.free.length ≤ floor)) : st.allocate cls floor = none := by
  rcases st.allocate_cases cls floor with ⟨b, r, hb, hgrant, -⟩ | ⟨-, hnone⟩
  · rcases h with hnil | ⟨hcls, hle⟩
    · simp [hnil] at hb
    · rcases hgrant with hgrant | hgrant
      · simp [hcls] at hgrant
      · omega
  · exact hnone

theorem State.requestBlock_granted (s : State) (f : Flow) {cls : ReserveClass} (bytes : List Byte) {blk : BlockNo} {rest : List BlockNo}
    (hfree : s.store.free = blk :: rest) (hgrant : cls = .class0 ∨ s.settings.reserveFloor.toNat < s.store.free.length) :
    s.requestBlock f cls bytes = { s with
      store := { mem := memWriteAll s.store.mem (blockAddress blk 0) bytes, free := rest },
      lineIn := { s.lineIn with record := some { flow := f, reserveClass := cls, chain := s.lineIn.chain ++ [blk] } } } := by
  rw [State.requestBlock, s.store.allocate_granted hfree hgrant]
  rfl

theorem State.requestBlock_refused (s : State) (f : Flow) {cls : ReserveClass} (bytes : List Byte)
    (h : s.store.free = [] ∨ (cls = .class1 ∧ s.store.free.length ≤ s.settings.reserveFloor.toNat)) :
    s.requestBlock f cls bytes = { s with
      lineIn := { s.lineIn with state := .drain, record := none, truncated := true },
      store := { s.store with free := s.lineIn.chain.reverse ++ s.store.free } } := by
  rw [State.requestBlock, s.store.allocate_refused h]
  rfl

/-- Settles O17: the byte presented asks for a block, and the request is granted or refused. -/
theorem blockRequestIsGrantedOrTruncates : Obligations.BlockRequestIsGrantedOrTruncates := by
  intro s b o x y z label place f cls k hs hh hk hc hheader hopens
  have hrequest : exec (.lineInByte b) s = .next ((s.setLineIn (s.lineIn.take b)).requestBlock f cls
      (if k = 4 then (s.lineIn.take b).header ++ [o] else [o])) := by
    have hc : (s.setLineIn (s.lineIn.take b)).classifier = some { label := label, kind := .forward f cls, inboxPlace := place } := hc
    rw [exec_lineInByte_presents hs hh hk, State.presentByte_forward _ k o hc rfl, State.presentForward_opens _ k o f cls hopens]
    rfl
  have hsame : (s.lineIn.take b).header = s.lineIn.header := by rw [LineInReceiver.take_header, if_neg (by omega)]
  rw [hsame] at hrequest
  refine ⟨fun blk rest hfree hgrant => ?_, fun hrefuse => ?_⟩
  · refine ⟨memWriteAll s.store.mem (blockAddress blk 0) (if k = 4 then s.lineIn.header ++ [o] else [o]), ?_, fun a => ?_⟩
    · rw [hrequest, State.requestBlock_granted (s.setLineIn (s.lineIn.take b)) f _ hfree hgrant, ← s.lineIn.take_chain b]
      rfl
    · have hfive : blockAddress blk 5 = blockAddress blk 0 + 5 := rfl
      rw [memRead_memWriteAll, hfive]
      by_cases hfour : k = 4
      · simp [hfour, hheader]
      · have hone : blockAddress blk 0 ≤ a ∧ a < blockAddress blk 0 + 1 ↔ a = blockAddress blk 0 := by omega
        simp only [hfour, if_false, false_and, List.length_singleton, hone, not_false_eq_true, true_and, ne_eq]
        split
        · rename_i heq
          rw [heq, Nat.sub_self]
          rfl
        · rfl
  · rw [hrequest, State.requestBlock_refused (s.setLineIn (s.lineIn.take b)) f _ hrefuse, ← s.lineIn.take_chain b]
    rfl

/-- Settles O18: both kinds of frame overrun, each at its own byte. -/
theorem overLengthFrameGivesUpItsStorage : Obligations.OverLengthFrameGivesUpItsStorage := by
  intro s b o x y z c k hs hh hc hk hlong
  have hoverrun : exec (.lineInByte b) s = .next (s.setLineIn (s.lineIn.take b)).overrun := by
    have hc : (s.setLineIn (s.lineIn.take b)).classifier = some c := hc
    rw [exec_lineInByte_presents hs hh hk]
    rcases hlong with ⟨f, cls, hkind, hlong⟩ | ⟨hkind, hlong⟩
    · rw [State.presentByte_forward _ k o hc hkind, State.presentForward_overrun _ k o f cls hlong]
    · rw [State.presentByte_management _ k o hc hkind, State.presentManagement_overrun _ k o hlong]
  have hforget : s.classifier.map (fun c => { c with inboxPlace := false }) = some { c with inboxPlace := false } := by rw [hc]; rfl
  rw [hoverrun, ← s.lineIn.take_chain b, ← hforget]
  rfl

end Sys2Proof.Machine
end

section
/-! Reception: the verdict at a frame's end, line-in coming Up and going Down, and Restart Traffic at the receiver (O19 to O22). -/

namespace Sys2Proof.Machine

open Sys2Proof

/-! ## The verdict (R98) -/

section
variable {r : LineInReceiver}

/-- Rows 1 and 2. -/
theorem LineInReceiver.verdict_neverClassified {c : Option Classification} (h : c = none ∨ r.byteCount < 4) :
    r.verdict c = .neverClassified := by
  cases c with
  | none => rfl
  | some c => exact if_pos (h.resolve_left nofun)

section
variable {c : Classification} (hlen : 4 ≤ r.byteCount) (hover : r.overflowed = false) (hrestart : r.restarted = false)
include hlen

/-- Row 3. -/
theorem LineInReceiver.verdict_afterOverflow (h : r.overflowed = true) : r.verdict (some c) = .afterOverflow := by
  simp only [LineInReceiver.verdict, if_neg (Nat.not_lt.2 hlen), h, if_true]

include hover

theorem LineInReceiver.verdict_afterRestart (h : r.restarted = true) : r.verdict (some c) = .afterRestart := by
  simp only [LineInReceiver.verdict, if_neg (Nat.not_lt.2 hlen), hover, Bool.false_eq_true, if_false, h, if_true]

include hrestart

/-- Row 4. -/
theorem LineInReceiver.verdict_truncated {f : Flow} {cls : ReserveClass} (hk : c.kind = .forward f cls) (ht : r.truncated = true) :
    r.verdict (some c) = .truncated f := by
  simp only [LineInReceiver.verdict, if_neg (Nat.not_lt.2 hlen), hover, hrestart, Bool.false_eq_true, if_false, hk, ht, if_true]

/-- The rows below row 4. -/
theorem LineInReceiver.verdict_on (h : (∀ f cls, c.kind ≠ .forward f cls) ∨ r.truncated = false) :
    r.verdict (some c) = r.verdictOn c := by
  simp only [LineInReceiver.verdict, if_neg (Nat.not_lt.2 hlen), hover, hrestart, Bool.false_eq_true, if_false]
  split
  · rename_i f cls hk
    rcases h with h | h
    · exact absurd hk (h f cls)
    · simp only [h, Bool.false_eq_true, if_false]
  · rfl
  · rfl

end

/-- The rows below row 7, of a frame with a good check and at least eight bytes before it. -/
theorem LineInReceiver.verdictOn_good {c : Classification} (hover : r.overLength = false) (hcheck : r.checkGood = true)
    (hlen : 12 ≤ r.byteCount) :
    (c.kind = .unmapped → r.verdictOn c = .unmapped c.label) ∧ (c.kind = .management → r.verdictOn c = .command) ∧
      ∀ f cls, c.kind = .forward f cls → r.verdictOn c = .forward := by
  have hlong : ¬ r.byteCount - 4 < 8 := by omega
  simp only [LineInReceiver.verdictOn, hover, hcheck, Bool.false_eq_true, Bool.not_true, if_false, if_neg hlong]
  exact ⟨fun hk => by simp only [hk], fun hk => by simp only [hk], fun f cls hk => by simp only [hk]⟩

end

/-- The End of a frame, by its verdict (R98). -/
theorem exec_lineInEndDelimiter_verdict {s : State} (h : s.lineIn.state.inFrame = true) {v : Verdict}
    (hv : s.lineIn.verdict s.classifier = v) :
    exec .lineInEndDelimiter s = .next (((s.count .lineInFrames).applyVerdict v).leaveFrame .idle) := by
  rw [exec_lineInEndDelimiter_inFrame s h, State.endFrame, hv]

/-- Settles O19: a good frame's verdict is that of a command or of a forward frame. -/
theorem goodFrameIsKept : Obligations.GoodFrameIsKept := by
  intro s c hc hs hcheck hlen htrunc hlong hover hrestart ended
  have hframe : s.lineIn.state.inFrame = true := by rw [hs]; rfl
  have hverdict : s.lineIn.verdict s.classifier = s.lineIn.verdictOn c := by
    rw [hc]
    exact LineInReceiver.verdict_on (by omega) hover hrestart (.inr htrunc)
  obtain ⟨-, hcommand, hforward⟩ := LineInReceiver.verdictOn_good (c := c) hlong hcheck hlen
  refine ⟨fun hk hrecord => ?_, fun f cls r hk hrecord => ?_⟩
  · rw [exec_lineInEndDelimiter_verdict hframe (hverdict.trans (hcommand hk)), State.leaveFrame_eq]
    have hchain : s.lineIn.chain = [] := by rw [LineInReceiver.chain, hrecord]
    have hstore : s.store.returnChain s.lineIn.chain = s.store := by rw [hchain]; rfl
    have hkept (st : FrameStore) (hst : st = s.store) : ({ ended.count .managementFrames with
        store := st, agent := { s.agent with inbox := s.agent.inbox.map (fun e => { e with complete := true }) } } : State) =
        { ended.count .managementFrames with
          agent := { s.agent with inbox := s.agent.inbox.map (fun e => { e with complete := true }) } } := by
      subst hst
      rfl
    exact congrArg Host.Outcome.next (hkept _ hstore)
  · rw [exec_lineInEndDelimiter_verdict hframe (hverdict.trans (hforward f cls hk)), State.leaveFrame_eq]
    have hhand : (s.count .lineInFrames).applyVerdict .forward = { s.count .lineInFrames with
        lineIn := { s.lineIn with record := none },
        pacing := { s.pacing with
          requests := s.pacing.requests ++ [{ toReceptionRecord := r, length := s.lineIn.byteCount - 4 }] } } := by
      have hsome : (s.count .lineInFrames).lineIn.record = some r := hrecord
      simp only [State.applyVerdict, State.handOver, hsome]
      rfl
    rw [hhand]
    rfl

/-- Settles O20: each row of the table as the verdict it is, in order. -/
theorem discardedFrameIsCountedOnce : Obligations.DiscardedFrameIsCountedOnce := by
  intro s hframe gone freed
  refine ⟨fun h => ?_, fun c hc hlen => ⟨fun h => ?_, fun hover hrestart => ⟨fun f cls hk ht => ?_, fun h => ?_⟩⟩⟩
  · rw [exec_lineInEndDelimiter_verdict hframe (LineInReceiver.verdict_neverClassified h)]
    rfl
  · by_cases hover : s.lineIn.overflowed = true
    · rw [exec_lineInEndDelimiter_verdict hframe (hc ▸ LineInReceiver.verdict_afterOverflow hlen hover)]
      rfl
    · rw [exec_lineInEndDelimiter_verdict hframe
        (hc ▸ LineInReceiver.verdict_afterRestart hlen (by simpa using hover) (h.resolve_left hover))]
      rfl
  · rw [exec_lineInEndDelimiter_verdict hframe (hc ▸ LineInReceiver.verdict_truncated hlen hover hrestart hk ht)]
    rfl
  · have hverdict : s.lineIn.verdict s.classifier = s.lineIn.verdictOn c := hc ▸ LineInReceiver.verdict_on hlen hover hrestart h
    refine ⟨fun hlong => ?_, fun hlong hcheck => ?_, fun hlong hcheck hshort => ?_, fun hlong hcheck hgood hk => ?_⟩
    · have hon : s.lineIn.verdictOn c = .overLength := if_pos hlong
      rw [exec_lineInEndDelimiter_verdict hframe (hverdict.trans hon)]
      rfl
    · have hon : s.lineIn.verdictOn c = .checkError c.label := by
        simp only [LineInReceiver.verdictOn, hlong, hcheck, Bool.false_eq_true, if_false, Bool.not_false, if_true]
      rw [exec_lineInEndDelimiter_verdict hframe (hverdict.trans hon)]
      rfl
    · have hon : s.lineIn.verdictOn c = .tooShort := by
        have hfew : s.lineIn.byteCount - 4 < 8 := by omega
        simp only [LineInReceiver.verdictOn, hlong, hcheck, Bool.false_eq_true, if_false, Bool.not_true, hfew, if_true]
      rw [exec_lineInEndDelimiter_verdict hframe (hverdict.trans hon)]
      rfl
    · rw [exec_lineInEndDelimiter_verdict hframe (hverdict.trans ((LineInReceiver.verdictOn_good hlong hcheck hgood).1 hk))]
      rfl

/-! ## Line-in going Down (R104, R160) -/

/-- A truncated frame lost with the line is counted, as if after its loss (R83, R104). -/
theorem State.loseFrame_truncated {s : State} {f : Flow} (h : s.truncatedFlow = some f) :
    s.loseFrame = (s.freePlace.leaveFrame .down).countTruncated f := by
  simp only [State.loseFrame, h]
  rfl

theorem State.loseFrame_other {s : State} (h : s.truncatedFlow = none) : s.loseFrame = s.freePlace.leaveFrame .down := by
  simp only [State.loseFrame, h]

/-- The frame on line-in transmit lost with the line, by what is on it (R160). -/
theorem State.mergeDown_returnFrame {s : State} {bytes : List Byte} (h : s.merge.transmitter = .busy .returnFrame bytes) :
    s.mergeDown = { s.count .returnDrops with merge := { s.merge with buffer := s.merge.buffer.tail, transmitter := .down } } := by
  simp only [State.mergeDown, h]
  rfl

theorem State.mergeDown_response {s : State} {bytes : List Byte} (h : s.merge.transmitter = .busy .response bytes) :
    s.mergeDown = { s with merge := { s.merge with transmitter := .down }, agent := { s.agent with outbox := s.agent.outbox.tail } } := by
  simp only [State.mergeDown, h]
  rfl

theorem State.mergeDown_other {s : State} (hreturn : ∀ bytes, s.merge.transmitter ≠ .busy .returnFrame bytes)
    (hresponse : ∀ bytes, s.merge.transmitter ≠ .busy .response bytes) :
    s.mergeDown = { s with merge := { s.merge with transmitter := .down } } := by
  unfold State.mergeDown
  split
  · rename_i bytes h
    exact absurd h (hreturn bytes)
  · rename_i kind bytes hkind h
    cases kind with
    | returnFrame => exact absurd h (hreturn bytes)
    | response => exact absurd h (hresponse bytes)
    | report => rfl
  · rfl

theorem State.truncatedFlow_forward {s : State} {label : Word16} {f : Flow} {cls : ReserveClass} {place : Bool}
    (hc : s.classifier = some { label := label, kind := .forward f cls, inboxPlace := place }) :
    s.truncatedFlow = if s.lineIn.truncated && !s.lineIn.restarted then some f else none := by
  simp only [State.truncatedFlow, hc]

theorem State.truncatedFlow_other {s : State}
    (hc : ∀ label f cls place, s.classifier ≠ some { label := label, kind := .forward f cls, inboxPlace := place }) :
    s.truncatedFlow = none := by
  unfold State.truncatedFlow
  split
  · split
    · rename_i h
      exact absurd h (hc _ _ _ _)
    · rfl
  · rfl

/-- Settles O21: the receiver's loss first, by what the frame was, then the transmitter's, by what is on the line. -/
theorem lineInComesUpAndGoesDown : Obligations.LineInComesUpAndGoesDown := by
  intro s
  refine ⟨?_, fun hdown => ?_, fun hup => ?_⟩
  · by_cases hdown : s.lineIn.state = .down
    · simp only [exec, execLineInComesUp, LineInReceiver.up, hdown, bne_self_eq_false, Bool.false_eq_true, if_false, if_true]
      rfl
    · have hup : s.lineIn.up = true := by simpa [LineInReceiver.up] using hdown
      simp only [exec, execLineInComesUp, hup, hdown, if_true, if_false]
  · simp [exec, execLineInGoesDown, LineInReceiver.up, hdown]
  · intro lost counted
    have hup : s.lineIn.up = true := by simpa [LineInReceiver.up] using hup
    have hlose : s.loseFrame = counted := by
      simp only [counted]
      split
      · rename_i label f cls place hc
        have hflow := State.truncatedFlow_forward hc
        split at hflow
        · rename_i ht
          rw [State.loseFrame_truncated hflow, if_pos ht]
          rfl
        · rename_i ht
          rw [State.loseFrame_other hflow, if_neg ht]
          rfl
      · rename_i hc
        rw [State.loseFrame_other (State.truncatedFlow_other fun label f cls place h => hc label f cls place h)]
        rfl
    have hmerge : counted.merge = s.merge := by rw [← hlose, State.loseFrame_frame]
    have houtbox : counted.agent.outbox = s.agent.outbox := by rw [← hlose, State.loseFrame_frame]
    have hexec : exec .lineInGoesDown s = .next counted.mergeDown := by
      simp only [exec, execLineInGoesDown, hup, if_true, hlose]
    rw [hexec]
    refine congrArg Host.Outcome.next ?_
    split
    · rename_i bytes h
      rw [State.mergeDown_returnFrame (hmerge ▸ h), hmerge]
    · rename_i bytes h
      rw [State.mergeDown_response (hmerge ▸ h), hmerge, houtbox]
    · rename_i hreturn hresponse
      rw [State.mergeDown_other (hmerge ▸ hreturn) (hmerge ▸ hresponse), hmerge]

/-! ## Restart Traffic at the receiver (R106) -/

section
variable {s : State}

theorem State.restartLineIn_forward {label : Word16} {f : Flow} {cls : ReserveClass} {place : Bool}
    (hc : s.classifier = some { label := label, kind := .forward f cls, inboxPlace := place }) (hr : s.lineIn.restarted = false) :
    s.restartLineIn = if s.lineIn.truncated then (s.countTruncated f).markRestarted
      else if s.lineIn.overLength then (s.count .lengthErrors).markRestarted
      else (s.drainRecord.countFlow f .flushed).markRestarted := by
  simp only [State.restartLineIn, hc, hr, Bool.false_eq_true, if_false]

theorem State.restartLineIn_left
    (h : (∀ label f cls place, s.classifier ≠ some { label := label, kind := .forward f cls, inboxPlace := place }) ∨
      s.lineIn.restarted = true) : s.restartLineIn = s := by
  unfold State.restartLineIn
  split
  · rename_i label f cls place hc
    exact if_pos (h.resolve_left fun hnone => hnone label f cls place hc)
  · rfl

end

/-- Settles O22: the request is taken, and the frame in reception is counted or left. -/
theorem restartDiscardsTheForwardFrameInReception : Obligations.RestartDiscardsTheForwardFrameInReception := by
  intro s transaction pacingTaken egressTaken hexecution taken marked
  have hexec : exec .restartAtLineInReceiver s = .next taken.restartLineIn := by
    simp only [exec, execRestartAtLineInReceiver, hexecution, taken]
  refine ⟨fun label f cls place hc hr => ?_, fun h => ?_⟩
  · rw [hexec, State.restartLineIn_forward (s := taken) hc hr]
    refine congrArg Host.Outcome.next (if_congr Iff.rfl ?_ (if_congr Iff.rfl rfl rfl))
    rfl
  · rw [hexec, State.restartLineIn_left (s := taken) h]

end Sys2Proof.Machine
end

section
/-! Line-out receive and the line's comings Up and goings Down: Hold symbols, return frames (O23 to O27). -/

namespace Sys2Proof.Machine

open Sys2Proof

/-! ## Hold symbols (R30, R36, R37, R180) -/

/-- The argument that carries a mask decodes to it (10_formats section 10.4). -/
theorem decodeHold_mask (mask : BitVec 4) : decodeHold (.byte (~~~ mask ++ mask)) = some mask := by decide +revert

theorem decodeHold_undecodable {b : Byte} (h : b.extractLsb' 4 4 ≠ ~~~ (b.extractLsb' 0 4)) : decodeHold (.byte b) = none := if_neg h

theorem exec_holdSymbol_undecodable {arg : SymbolArgument} (h : decodeHold arg = none) (s : State) :
    exec (.holdSymbol arg) s = .next s := by
  simp only [exec, execHoldSymbol, h]

theorem exec_holdSymbol_mask {arg : SymbolArgument} {mask : BitVec 4} (h : decodeHold arg = some mask) (s : State) :
    exec (.holdSymbol arg) s = .next (if s.lineOut.up then s.holdChange mask else s) := by
  simp only [exec, execHoldSymbol, h]

/-- Settles O23: an argument is discarded or carries a mask, and a new mask sets each timer by its level. -/
theorem holdSymbolReplacesTheMask : Obligations.HoldSymbolReplacesTheMask := by
  intro s
  refine ⟨fun _ _ => rfl, exec_holdSymbol_undecodable rfl s, fun b hb => exec_holdSymbol_undecodable (decodeHold_undecodable hb) s, ?_⟩
  rintro mask b rfl
  rw [exec_holdSymbol_mask (decodeHold_mask mask)]
  refine ⟨fun h => congrArg Host.Outcome.next ?_, fun hup hnew => ?_⟩
  · rcases h with hdown | hsame
    · exact if_neg (by simp [LineOutReceiver.up, hdown])
    · rw [State.holdChange, if_pos hsame.symm, ite_self]
  · have hup : s.lineOut.up = true := by simpa [LineOutReceiver.up] using hup
    refine ⟨Vector.ofFn (s.egress.timerAtHold s.lineOut.holdMask mask s.settings.stallLimit), ?_, fun l => ?_⟩
    · rw [if_pos hup, State.holdChange, if_neg fun h => hnew h.symm]
      rfl
    · simp only [Fin.getElem_fin, Vector.getElem_ofFn, Fin.eta, EgressScheduler.timerAtHold]
      cases hl : held mask l with
      | false => simp
      | true => simp [Bool.and_eq_true, and_assoc]

/-! ## Return frames (R152, R153) -/

section
variable {s : State} {b : Byte}

theorem exec_returnByte_discarded (h : s.lineOut.state ≠ .storing) : exec (.returnByte b) s = .next s := by
  cases hs : s.lineOut.state with
  | storing => exact absurd hs h
  | down => simp only [exec, execReturnByte, hs]
  | idle => simp only [exec, execReturnByte, hs]
  | draining => simp only [exec, execReturnByte, hs]

theorem exec_returnByte_storing (h : s.lineOut.state = .storing) :
    exec (.returnByte b) s =
      .next (if 1028 ≤ s.merge.storedLength then s.giveUpReturn.setLineOutState .draining else s.storeReturn b) := by
  simp only [exec, execReturnByte, h]

theorem exec_returnEnd_storing (h : s.lineOut.state = .storing) :
    exec .returnEndDelimiter s = .next
      (if 12 ≤ s.merge.storedLength then s.keepReturn.setLineOutState .idle else s.giveUpReturn.setLineOutState .idle) := by
  simp only [exec, execReturnEndDelimiter, h]

/-- A place asked for, with one free and with none (R152). -/
theorem State.takePlace_eq : s.takePlace = if s.merge.buffer.length < 2 then
      { s with lineOut := { s.lineOut with state := .storing },
               merge := { s.merge with buffer := s.merge.buffer ++ [{ complete := false, bytes := [] }] } }
    else { s.count .returnDrops with lineOut := { s.lineOut with state := .draining } } := rfl

end

/-- Settles O24: a frame being stored goes first, then a place is asked for. -/
theorem returnStartTakesAPlaceOrIsRefused : Obligations.ReturnStartTakesAPlaceOrIsRefused := by
  intro s
  refine ⟨fun hdown => ?_, fun hup => ⟨_, rfl, ?_⟩⟩
  · simp only [exec, execReturnStartDelimiter, hdown]
  · cases hs : s.lineOut.state with
    | down => exact absurd hs hup
    | idle => simp only [exec, execReturnStartDelimiter, hs, State.takePlace_eq, reduceCtorEq, if_false]
    | draining => simp only [exec, execReturnStartDelimiter, hs, State.takePlace_eq, reduceCtorEq, if_false]
    | storing =>
      have hexec : exec .returnStartDelimiter s = .next s.giveUpReturn.takePlace := by
        simp only [exec, execReturnStartDelimiter, hs]
      rw [hexec, State.takePlace_eq, if_pos rfl]
      rfl

section
variable {s : State} {kept : List ReturnEntry} {bytes : List Byte} (hb : s.merge.buffer = kept ++ [{ complete := false, bytes := bytes }])
  (hk : ∀ e ∈ kept, e.complete = true)
include hb hk

/-- The frame being stored given up leaves the whole frames before it (R153). -/
theorem State.giveUpReturn_filling (x : LineOutState) : s.giveUpReturn.setLineOutState x =
    { s.count .returnDrops with merge := { s.merge with buffer := kept }, lineOut := { s.lineOut with state := x } } := by
  have hfilter : s.merge.buffer.filter (fun e => e.complete) = kept := by rw [hb]; exact filter_filling hk bytes
  rw [State.giveUpReturn, hfilter]
  rfl

theorem State.storeReturn_filling (b : Byte) :
    s.storeReturn b = { s with merge := { s.merge with buffer := kept ++ [{ complete := false, bytes := bytes ++ [b] }] } } := by
  rw [State.storeReturn, hb, map_filling hk bytes b]
  rfl

theorem State.keepReturn_filling :
    s.keepReturn = { s with merge := { s.merge with buffer := kept ++ [{ complete := true, bytes := bytes }] } } := by
  rw [State.keepReturn, hb, map_complete hk bytes]
  rfl

end

/-- Settles O25: byte 1028 is the first that finds 1028 stored. -/
theorem returnByteIsStored : Obligations.ReturnByteIsStored := by
  intro s b
  refine ⟨exec_returnByte_discarded, fun kept bytes hs hb hk => ?_⟩
  rw [exec_returnByte_storing hs, ReturnMerge.storedLength_filling hk bytes hb, State.giveUpReturn_filling hb hk,
    State.storeReturn_filling hb hk]
  by_cases hlen : bytes.length < 1028
  · rw [if_neg (Nat.not_le.2 hlen), if_pos hlen]
  · rw [if_pos (Nat.not_lt.1 hlen), if_neg hlen]

/-- Settles O26, by the state of the receiver. -/
theorem returnFrameIsKeptOrGivenUp : Obligations.ReturnFrameIsKeptOrGivenUp := by
  intro s
  refine ⟨fun h => ?_, fun hs => ?_, fun kept bytes hs hb hk => ⟨?_, ?_⟩⟩
  · rcases h with hs | hs
    · simp only [exec, execReturnEndDelimiter, execReturnErrorSymbol, hs, and_self]
    · simp only [exec, execReturnEndDelimiter, execReturnErrorSymbol, hs, and_self]
  · simp only [exec, execReturnEndDelimiter, execReturnErrorSymbol, hs, State.setLineOutState, and_self]
  · rw [exec_returnEnd_storing hs, ReturnMerge.storedLength_filling hk bytes hb, State.keepReturn_filling hb hk,
      State.giveUpReturn_filling hb hk]
    rfl
  · have hexec : exec .returnErrorSymbol s = .next (s.giveUpReturn.setLineOutState .draining) := by
      simp only [exec, execReturnErrorSymbol, hs]
    rw [hexec, State.giveUpReturn_filling hb hk]

/-! ## Line-out Up and Down (R45, R46, R48, R155) -/

/-- With the Stream Reset pending, a decision event of an idle line sends it (R12). -/
theorem State.decisionEvent_streamReset {s : State} (hn : s.egress.inFlight = none) (hup : s.lineOut.state ≠ .down)
    (hr : s.egress.streamReset = true) :
    s.decisionEvent = { s with egress := { s.egress with streamReset := false, inFlight := some .streamReset } } := by
  rw [s.decisionEvent_choice hn hup]
  simp only [EgressScheduler.choose, hr, if_true, CounterBank.addSome]

/-- The frames abandoned: the stack's, and the current one unless it is Drop-marked (R45). -/
theorem EgressScheduler.abandoned_length (e : EgressScheduler) :
    e.abandoned.length = e.stack.length + if e.current.isSome && !e.dropMark then 1 else 0 := by
  rw [EgressScheduler.abandoned, List.length_append, Nat.add_comm]
  cases e.dropMark <;> cases e.current <;> rfl

/-- Settles O27: coming Up is a decision event; going Down is the receiver's loss and the scheduler's. -/
theorem lineOutComesUpAndGoesDown : Obligations.LineOutComesUpAndGoesDown := by
  intro s
  refine ⟨fun hup => ?_, fun hdown hr hn => ?_, fun hdown => ?_, fun hup => ?_⟩
  · have hup : s.lineOut.up = true := by simpa [LineOutReceiver.up] using hup
    simp only [exec, execLineOutComesUp, hup, if_true]
  · have hexec : exec .lineOutComesUp s = .next (s.setLineOutState .idle).decisionEvent := by
      simp [exec, execLineOutComesUp, LineOutReceiver.up, hdown]
    rw [hexec, State.decisionEvent_streamReset (s := s.setLineOutState .idle) hn nofun hr]
    rfl
  · simp [exec, execLineOutGoesDown, LineOutReceiver.up, hdown]
  · have hup : s.lineOut.up = true := by simpa [LineOutReceiver.up] using hup
    have hexec : exec .lineOutGoesDown s = .next
        ({ s.loseReturn.post (.lineState .lineOut) with lineOut := { state := .down, holdMask := 0 } } : State).egressDown := by
      simp only [exec, execLineOutGoesDown, hup, if_true]
    have hlose : s.loseReturn = { s with
        merge := if s.lineOut.state = .storing then { s.merge with buffer := s.merge.buffer.filter (fun e => e.complete) } else s.merge,
        counters := if s.lineOut.state = .storing then s.counters.add .returnDrops 1 else s.counters } := by
      unfold State.loseReturn
      split
      · rename_i hs
        rw [if_pos hs, if_pos hs]
        rfl
      · rename_i hs
        rw [if_neg hs, if_neg hs]
    refine ⟨_, hexec, frame_lineOutGoesDown s _ hexec, rfl, ?_, ?_, ?_, rfl, rfl, rfl, rfl, rfl, rfl, fun l => ?_, ?_, ?_⟩
    · rw [hlose]
      rfl
    · rw [hlose]
      rfl
    · rw [hlose]
      rfl
    · exact Vector.getElem_replicate _
    · rw [hlose]
      simp only [State.egressDown, State.returnChains_store, foldl_returnChain, List.flatMap]
      rfl
    · rw [hlose]
      simp only [State.egressDown, EgressScheduler.abandoned_length]
      rfl

end Sys2Proof.Machine
end

section
/-! The Egress Scheduler: completions and the choice at a decision event (O28 to O32). -/

namespace Sys2Proof.Machine

open Sys2Proof

/-! ## Completions (R8 to R10, R26) -/

section
variable {s : State} {g : Segment} {c : SentFrame}

theorem exec_segmentCompletion_segment (hg : s.egress.inFlight = some (.segment g)) (hc : s.egress.current = some c) :
    exec .segmentCompletion s = .next (s.completeSegment g c).decisionEvent := by
  simp only [exec, execSegmentCompletion, hg, hc]

theorem State.completeSegment_advances (hd : s.egress.dropMark = false) (hp : g.position = .first ∨ g.position = .middle) :
    s.completeSegment g c =
      { s.count .segmentsSent with
        egress := { s.egress with current := some { c with segmentsSent := c.segmentsSent + 1 }, inFlight := none } } := by
  have hfinal : g.position.final = false := by rcases hp with hp | hp <;> rw [hp] <;> rfl
  simp only [State.completeSegment, hd, hfinal, Bool.false_eq_true, if_false]
  rfl

theorem State.completeSegment_sent (hd : s.egress.dropMark = false) (hp : g.position = .whole ∨ g.position = .last) :
    s.completeSegment g c =
      (({ s with egress := s.egress.clearSlot }.returnChain c.chain).count .segmentsSent).countFlow c.flow .sent := by
  have hfinal : g.position.final = true := by rcases hp with hp | hp <;> rw [hp] <;> rfl
  simp only [State.completeSegment, hd, hfinal, Bool.false_eq_true, if_false, if_true]

theorem State.completeSegment_dropped (hd : s.egress.dropMark = true) :
    s.completeSegment g c = ({ s with egress := s.egress.clearSlot }.returnChain c.chain).count .segmentsSent := by
  simp only [State.completeSegment, hd, if_true]

end

/-- Settles O28, by the Drop mark and the segment's position. -/
theorem segmentCompletionAdvancesSendsOrDrops : Obligations.SegmentCompletionAdvancesSendsOrDrops := by
  intro s
  refine ⟨fun g c hg hc => ?_, fun hnone => ?_⟩
  · rw [exec_segmentCompletion_segment hg hc]
    exact ⟨fun hd hp => by rw [State.completeSegment_advances hd hp], fun hd hp => by rw [State.completeSegment_sent hd hp]; rfl,
      fun hd => by rw [State.completeSegment_dropped hd]; rfl⟩
  · simp only [exec, execSegmentCompletion]
    split
    · rename_i g _ hg _
      exact absurd hg (hnone g)
    · rfl

/-- Settles O29, by what is in flight. -/
theorem symbolCompletionLeavesTheCurrentFrame : Obligations.SymbolCompletionLeavesTheCurrentFrame := by
  intro s
  refine ⟨fun stream hf => ?_, fun hf => ?_, fun h => ?_⟩
  · simp only [exec, execControlSymbolCompletion, hf]
    rfl
  · simp only [exec, execControlSymbolCompletion, hf]
  · rcases h with hf | ⟨g, hf⟩
    · simp only [exec, execControlSymbolCompletion, hf]
    · simp only [exec, execControlSymbolCompletion, hf]

/-! ## The choice, first the symbols (R11, R12, R22) -/

/-- With no Stream Reset pending, a decision event sends the Abort of the lowest pending stream (R12). -/
theorem State.decisionEvent_abort {s : State} (hn : s.egress.inFlight = none) (hup : s.lineOut.state ≠ .down)
    (hr : s.egress.streamReset = false) {l : Level} (hl : lowestStream s.egress.pendingAborts = some l) :
    s.decisionEvent = { s with egress := { s.egress with
      pendingAborts := clearLevel s.egress.pendingAborts l, inFlight := some (.abort l) } } := by
  rw [s.decisionEvent_choice hn hup]
  simp only [EgressScheduler.choose, hr, Bool.false_eq_true, if_false, hl, CounterBank.addSome]

/-- Settles O30, in the order of the choice. -/
theorem choiceSendsSymbolsFirst : Obligations.ChoiceSendsSymbolsFirst := by
  intro s
  refine ⟨s.decisionEvent_busy, fun hn hup => ⟨State.decisionEvent_streamReset hn hup, fun hr l hl hlow => ?_⟩⟩
  exact ⟨_, State.decisionEvent_abort hn hup hr (lowestStream_some _ l hl hlow), held_clearLevel _ l⟩

/-! ## The most urgent lane (R14, R15) -/

/-- A lane the search may find: below the bound, unheld, with such a head. -/
def EgressScheduler.Eligible (e : EgressScheduler) (mask : BitVec 4) (bound : Nat) (p : ReleasedFrame → Bool) (l : Level) : Prop :=
  l.val < bound ∧ held mask l = false ∧ ∃ f rest, e.lanes[l] = f :: rest ∧ p f = true

section
variable {e : EgressScheduler} {mask : BitVec 4} {bound : Nat} {p : ReleasedFrame → Bool}

theorem EgressScheduler.eligible_iff (l : Level) :
    (decide (l.val < bound) && !held mask l && (e.lanes[l].head?.any p)) = true ↔ e.Eligible mask bound p l := by
  have hhead : (e.lanes[l].head?.any p) = true ↔ ∃ f rest, e.lanes[l] = f :: rest ∧ p f = true := by
    cases e.lanes[l] with
    | nil => simp
    | cons f rest => simp
  rw [EgressScheduler.Eligible, ← hhead]
  simp only [Bool.and_eq_true, decide_eq_true_eq, Bool.not_eq_true', and_assoc]

theorem EgressScheduler.urgentLane_eq_some {l : Level} (hl : e.Eligible mask bound p l) (hlow : ∀ k, k < l → ¬ e.Eligible mask bound p k) :
    e.urgentLane mask bound p = some l :=
  allLevels_find_some _ l ((EgressScheduler.eligible_iff l).2 hl)
    fun k hk => Bool.eq_false_iff.2 fun h => hlow k hk ((EgressScheduler.eligible_iff k).1 h)

theorem EgressScheduler.urgentLane_eq_none (h : ∀ l, ¬ e.Eligible mask bound p l) : e.urgentLane mask bound p = none :=
  allLevels_find_none _ fun k => Bool.eq_false_iff.2 fun hk => h k ((EgressScheduler.eligible_iff k).1 hk)

end

/-! ## The choice of a segment (R13 to R16) -/

section
variable {s : State} (hn : s.egress.inFlight = none) (hup : s.lineOut.state ≠ .down) (hr : s.egress.streamReset = false)
  (ha : s.egress.pendingAborts = 0)
include hn hup hr ha

/-- With no symbol to send and a current frame, a decision event is the choice about that frame. -/
theorem State.decisionEvent_current {c : SentFrame} (hc : s.egress.current = some c) :
    s.decisionEvent = { s with egress := (s.egress.chooseCurrent s.store s.lineOut.holdMask c).egress,
                               counters := s.counters.addSome (s.egress.chooseCurrent s.store s.lineOut.holdMask c).counted } := by
  rw [s.decisionEvent_choice hn hup]
  simp only [EgressScheduler.choose, hr, Bool.false_eq_true, if_false, ha, BitVec.ofNat_eq_ofNat, lowestStream_zero, hc]

/-- With no symbol to send and no current frame, a decision event is the choice of a frame to start or resume. -/
theorem State.decisionEvent_idle (hc : s.egress.current = none) :
    s.decisionEvent = { s with egress := s.egress.chooseIdle s.store s.lineOut.holdMask } := by
  rw [s.decisionEvent_choice hn hup]
  simp only [EgressScheduler.choose, hr, Bool.false_eq_true, if_false, ha, BitVec.ofNat_eq_ofNat, lowestStream_zero, hc,
    CounterBank.addSome]

end

/-- The current frame sent on is the scheduler with its next segment in flight (R13). -/
theorem EgressScheduler.send_current {e : EgressScheduler} {c : SentFrame} (hc : e.current = some c) (st : FrameStore) :
    e.send st c = { e with inFlight := some (.segment (formSegment st c.toReleasedFrame c.segmentsSent)) } := by
  rw [EgressScheduler.send, ← hc]

/-- Settles O31, by the current frame's level, its flag, and the lanes above it. -/
theorem choiceSuspendsPreemptsOrContinues : Obligations.ChoiceSuspendsPreemptsOrContinues := by
  intro s c hn hup hr ha hc newcomer
  have hnew (l : Level) : newcomer l ↔ s.egress.Eligible s.lineOut.holdMask c.level.val (fun f => f.preempting) l := Iff.rfl
  refine ⟨fun hh => ?_, fun hh => ⟨fun l f rest hp hl hlow hf => ?_, fun hstay => ?_⟩⟩
  · have hchoose : s.egress.chooseCurrent s.store s.lineOut.holdMask c =
        { egress := (s.egress.push c).chooseIdle s.store s.lineOut.holdMask, counted := some .forcedSuspensions } := if_pos hh
    rw [State.decisionEvent_current hn hup hr ha hc, hchoose]
    exact (State.decisionEvent_idle (s := { s.count .forcedSuspensions with egress := s.egress.push c }) hn hup hr ha rfl).symm
  · have hurgent := EgressScheduler.urgentLane_eq_some ((hnew l).1 hl) fun k hk => mt (hnew k).2 (hlow k hk)
    have hchoose : s.egress.chooseCurrent s.store s.lineOut.holdMask c =
        { egress := (s.egress.push c).startLane s.store l, counted := some .preemptions } := by
      simp only [EgressScheduler.chooseCurrent, hh, Bool.false_eq_true, if_false, hp, if_true, hurgent]
    rw [State.decisionEvent_current hn hup hr ha hc, hchoose, (s.egress.push c).startLane_cons s.store l f rest hf]
    rfl
  · have hchoose : s.egress.chooseCurrent s.store s.lineOut.holdMask c = { egress := s.egress.send s.store c, counted := none } := by
      simp only [EgressScheduler.chooseCurrent, hh, Bool.false_eq_true, if_false]
      rcases hstay with hp | hnone
      · simp only [hp, Bool.false_eq_true, if_false]
      · have hurgent := EgressScheduler.urgentLane_eq_none fun l => mt (hnew l).2 (hnone l)
        simp only [hurgent, ite_self]
    rw [State.decisionEvent_current hn hup hr ha hc, hchoose, EgressScheduler.send_current hc]
    rfl

/-- A level is below the bound exactly when it is more urgent than the stack's top (R15). -/
theorem EgressScheduler.lt_bound_iff (e : EgressScheduler) (l : Level) :
    l.val < e.bound ↔ ∀ t rest, e.stack = t :: rest → l < t.level := by
  unfold EgressScheduler.bound
  cases e.stack with
  | nil => simp [l.isLt]
  | cons t rest =>
    constructor
    · rintro h u r heq
      cases heq
      exact h
    · exact fun h => h t rest rfl

/-- Settles O32, by the lanes below the bound and the stack's top. -/
theorem choiceStartsOrResumes : Obligations.ChoiceStartsOrResumes := by
  intro s hn hup hr ha hc startable
  have hstart (l : Level) : startable l ↔ s.egress.Eligible s.lineOut.holdMask s.egress.bound (fun _ => true) l := by
    rw [EgressScheduler.Eligible, EgressScheduler.lt_bound_iff]
    refine and_congr Iff.rfl (and_congr Iff.rfl ?_)
    rw [List.ne_nil_iff_exists_cons]
    simp only [and_true]
  rw [State.decisionEvent_idle hn hup hr ha hc]
  refine ⟨fun l f rest hl hlow hf => ?_, fun hnone => ⟨fun t rest ht => ?_, fun hnil => ?_⟩⟩
  · have hurgent := EgressScheduler.urgentLane_eq_some ((hstart l).1 hl) fun k hk => mt (hstart k).2 (hlow k hk)
    simp only [EgressScheduler.chooseIdle, hurgent]
    rw [s.egress.startLane_cons s.store l f rest hf]
  · have hurgent := EgressScheduler.urgentLane_eq_none fun l => mt (hstart l).2 (hnone l)
    simp only [EgressScheduler.chooseIdle, hurgent, ht]
    split
    · rfl
    · rfl
  · have hurgent := EgressScheduler.urgentLane_eq_none fun l => mt (hstart l).2 (hnone l)
    simp only [EgressScheduler.chooseIdle, hurgent, hnil]

end Sys2Proof.Machine
end

section
/-! Segments: their positions, their payloads and their bytes on the line (O33). -/

namespace Sys2Proof.Machine

open Sys2Proof

/-! ## Positions and payloads (R7) -/

theorem positionOf_eq {n k : Nat} (hn : 0 < n) (hk : k < n) :
    positionOf n k = if n = 1 then .whole else if k = 0 then .first else if k = n - 1 then .last else .middle := by
  unfold positionOf
  by_cases hone : n = 1
  · rw [if_pos (by omega), if_pos hone]
  · rw [if_neg (by omega), if_neg hone]
    by_cases hzero : k = 0
    · rw [if_pos hzero, if_pos hzero]
    · rw [if_neg hzero, if_neg hzero]
      by_cases hlast : k = n - 1
      · rw [if_neg (by omega), if_pos hlast]
      · rw [if_pos (by omega), if_neg hlast]

theorem payloadLength_eq {length k : Nat} (hk : k < blocksOf length) :
    payloadLength length k = if k = blocksOf length - 1 then length - 64 * (blocksOf length - 1) else 64 := by
  unfold payloadLength
  unfold blocksOf at hk ⊢
  split <;> omega

theorem payloadLength_pos {length k : Nat} (hk : k < blocksOf length) : 1 ≤ payloadLength length k := by
  unfold payloadLength
  unfold blocksOf at hk
  omega

theorem payloadLength_le (length k : Nat) : payloadLength length k ≤ 64 := Nat.min_le_left _ _

/-- The bytes of the first `n` segments, in order, are the frame's first bytes, each once. -/
theorem flatMap_payload (length n : Nat) :
    (List.range n).flatMap (fun k => (List.range (payloadLength length k)).map (64 * k + ·)) = List.range (min length (64 * n)) := by
  induction n with
  | zero => simp
  | succ n ih =>
    rw [List.range_succ, List.flatMap_append, ih, List.flatMap_singleton]
    by_cases hlong : 64 * n ≤ length
    · have hend : min length (64 * (n + 1)) = 64 * n + payloadLength length n := by
        unfold payloadLength
        omega
      rw [Nat.min_eq_right hlong, hend, List.range_add]
    · have hnone : payloadLength length n = 0 := by
        unfold payloadLength
        omega
      have hend : min length (64 * (n + 1)) = min length (64 * n) := by omega
      rw [hnone, hend, List.range_zero, List.map_nil, List.append_nil]

section
variable (st : FrameStore) (f : ReleasedFrame) (k : Nat)

theorem formSegment_payload_length : (formSegment st f k).payload.length = payloadLength f.length k := by simp [formSegment]

/-- Byte `j` of a segment's payload is byte `j` of its block (R7). -/
theorem formSegment_payload_byte (hk : k < f.chain.length) {j : Nat} (hj : j < payloadLength f.length k) :
    (formSegment st f k).payload[j]? = some (st.byteAt (blockAddress f.chain[k] j)) := by
  have hsmall : j < 64 := Nat.lt_of_lt_of_le hj (payloadLength_le _ _)
  have hblock : (64 * k + j) / 64 = k := by omega
  have hoffset : (64 * k + j) % 64 = j := by omega
  have hchain : f.chain[k]? = some f.chain[k] := List.getElem?_eq_getElem hk
  simp only [formSegment, List.getElem?_map, List.getElem?_range hj, Option.map_some, FrameStore.frameByte, hblock, hoffset, hchain]

/-- The payloads of all segments, in order (R7). -/
theorem flatMap_formSegment :
    (List.range (blocksOf f.length)).flatMap (fun k => (formSegment st f k).payload) =
      (List.range f.length).map (st.frameByte f.chain) := by
  have hall : min f.length (64 * blocksOf f.length) = f.length := by
    unfold blocksOf
    omega
  rw [← hall, ← flatMap_payload, List.map_flatMap]
  simp only [formSegment, List.map_map, Function.comp_def, hall]

end

/-! ## The bytes on the line (10_formats sections 10.3 and 10.4) -/

theorem headerByte_eq (l : Level) (p : Position) :
    BitVec.ofNat 2 l.val ++ p.code ++ 0#4 = BitVec.ofNat 8 (64 * l.val + 16 * p.code.toNat) := by
  cases p <;> decide +revert

theorem lengthByte_eq {n : Nat} (h : n < 64) : 0#2 ++ BitVec.ofNat 6 n = BitVec.ofNat 8 n := by
  have hall : ∀ x : Fin 64, 0#2 ++ BitVec.ofNat 6 x.val = BitVec.ofNat 8 x.val := by decide
  exact hall ⟨n, h⟩

theorem positionOf_code {n k : Nat} (hn : 0 < n) (hk : k < n) :
    (positionOf n k).code.toNat = if n = 1 then 0 else if k = 0 then 1 else if k = n - 1 then 3 else 2 := by
  rw [positionOf_eq hn hk]
  repeat' split
  all_goals rfl

theorem Segment.headerBytes_eq (g : Segment) (hlow : 1 ≤ g.payload.length) (hhigh : g.payload.length ≤ 64) :
    g.headerBytes = [BitVec.ofNat 8 (64 * g.stream.val + 16 * g.position.code.toNat), BitVec.ofNat 8 (g.payload.length - 1)] := by
  rw [Segment.headerBytes, headerByte_eq, lengthByte_eq (by omega)]

/-- A byte enters the CRC-16 register most significant bit first (R179). -/
theorem crc16Byte_eq (c : Word16) (b : Byte) :
    crc16Byte c b = Nat.iterate (fun c : Word16 => if c.getLsbD 15 then (c <<< 1) ^^^ 0x1021#16 else c <<< 1) 8 (c ^^^ (b ++ 0#8)) := by
  have hbyte : b.zeroExtend 16 <<< 8 = b ++ 0#8 := by decide +revert
  have hbit : crc16Bit = fun c : Word16 => if c.getLsbD 15 then (c <<< 1) ^^^ 0x1021#16 else c <<< 1 := by
    funext c
    rw [crc16Bit, BitVec.msb_eq_getLsbD_last]
  rw [crc16Byte, hbyte, hbit]

theorem segmentCheck_concat (bytes : List Byte) (b : Byte) : segmentCheck (bytes ++ [b]) = crc16Byte (segmentCheck bytes) b := by
  simp [segmentCheck]

theorem be16_eq (w : Word16) : be16 w = [BitVec.ofNat 8 (w.toNat / 256), BitVec.ofNat 8 w.toNat] := by
  have hhigh : w.extractLsb' 8 8 = BitVec.ofNat 8 (w.toNat / 256) := by
    apply BitVec.eq_of_toNat_eq
    simp [Nat.shiftRight_eq_div_pow]
  have hlow : w.extractLsb' 0 8 = BitVec.ofNat 8 w.toNat := by
    apply BitVec.eq_of_toNat_eq
    simp
  rw [be16, hhigh, hlow]

theorem abortArgument_eq (stream : Level) : abortArgument stream = BitVec.ofNat 8 (0xB4 + stream.val) := by decide +revert

/-- Settles O33, from the positions, the payloads and the bytes of each. -/
theorem segmentsCarryTheWholeFrame : Obligations.SegmentsCarryTheWholeFrame := by
  refine ⟨fun st f hlength hchain => ?_, rfl, fun bytes b => ?_, be16_eq, fun stream => ?_, rfl⟩
  · intro n
    refine ⟨flatMap_formSegment st f, fun k hk => ?_⟩
    have hk' : k < blocksOf f.length := hchain ▸ hk
    have hn : 0 < blocksOf f.length := by omega
    have hlow : 1 ≤ (formSegment st f k).payload.length := formSegment_payload_length st f k ▸ payloadLength_pos hk'
    have hhigh : (formSegment st f k).payload.length ≤ 64 := formSegment_payload_length st f k ▸ payloadLength_le _ _
    refine ⟨rfl, positionOf_eq hn hk', ?_, hlow, hhigh, fun j hj => ?_, _, rfl, ?_⟩
    · rw [formSegment_payload_length, payloadLength_eq hk']
    · exact formSegment_payload_byte st f k hk (formSegment_payload_length st f k ▸ hj)
    · have hheader := (formSegment st f k).headerBytes_eq hlow hhigh
      have hcode : (formSegment st f k).position.code.toNat = _ := positionOf_code hn hk'
      rw [hcode] at hheader
      have hbytes : (InFlight.segment (formSegment st f k)).bytes = (formSegment st f k).headerBytes ++ (formSegment st f k).payload ++
        be16 (segmentCheck ((formSegment st f k).headerBytes ++ (formSegment st f k).payload)) := rfl
      rw [hbytes, hheader]
      rfl
  · rw [segmentCheck_concat, crc16Byte_eq]
  · exact congrArg (fun x => [x]) (abortArgument_eq stream)

end Sys2Proof.Machine
end

section
/-! Partial frames given up: at a stall expiry, and by Restart Traffic at the Egress Scheduler (O34, O35). -/

namespace Sys2Proof.Machine

open Sys2Proof

/-! ## The partial frame in the slot (R35) -/

section
variable {e : EgressScheduler} {c : SentFrame}

theorem EgressScheduler.partialCurrent_of {e : EgressScheduler} {c : SentFrame} (hc : e.current = some c) (hd : e.dropMark = false)
    (hf : e.finalInFlight = false) : e.partialCurrent = some c := by
  rw [EgressScheduler.partialCurrent, hd, hf, hc]
  rfl

theorem EgressScheduler.partialCurrent_none (h : e.current = none ∨ e.dropMark = true ∨ e.finalInFlight = true) :
    e.partialCurrent = none := by
  unfold EgressScheduler.partialCurrent
  split
  · rfl
  · rename_i hclear
    rcases h with hc | hd | hf
    · exact hc
    · simp [hd] at hclear
    · simp [hf] at hclear

/-- A First or Middle segment in flight is not its frame's final one (R9). -/
theorem EgressScheduler.finalInFlight_segment {g : Segment} (hg : e.inFlight = some (.segment g))
    (hp : g.position = .first ∨ g.position = .middle) : e.finalInFlight = false := by
  simp only [EgressScheduler.finalInFlight, hg]
  rcases hp with hp | hp <;> rw [hp] <;> rfl

/-- A symbol in flight is no segment. -/
theorem EgressScheduler.segmentInFlight_symbol (h : e.inFlight = some .streamReset ∨ ∃ k, e.inFlight = some (.abort k)) :
    e.segmentInFlight = false := by
  rcases h with h | ⟨k, h⟩
  · simp only [EgressScheduler.segmentInFlight, h]
  · simp only [EgressScheduler.segmentInFlight, h]

theorem EgressScheduler.inFlight_symbol (h : e.inFlight = some .streamReset ∨ ∃ k, e.inFlight = some (.abort k)) :
    e.inFlight ≠ none := by
  rcases h with h | ⟨k, h⟩
  · simp [h]
  · simp [h]

end

/-! ## The three ways of a stall expiry (R39, R40) -/

section
variable {s : State} {l : Level} {c : SentFrame}

theorem exec_stallTimerExpiry_ended (h : s.egress.timers[l] = .ended) : exec (.stallTimerExpiry l) s = .next (s.expireTimer l) := by
  simp only [exec, execStallTimerExpiry, h, if_true]

theorem State.expireTimer_stack {above below : List SentFrame} (hs : s.egress.stack = above ++ c :: below) (hl : c.level = l)
    (hother : ∀ x ∈ above ++ below, x.level ≠ l) :
    s.expireTimer l =
      ({ s with egress := { s.egress with timers := s.egress.timers.set l .stopped, stack := above ++ below } }.returnChain
        c.chain).stallAbort l c.flow := by
  have habove : ∀ x ∈ above, x.level ≠ l := fun x hx => hother x (List.mem_append_left _ hx)
  have hbelow : ∀ x ∈ below, x.level ≠ l := fun x hx => hother x (List.mem_append_right _ hx)
  have hfind : s.egress.stack.find? (fun c : SentFrame => c.level == l) = some c := by
    have hnone : above.find? (fun c : SentFrame => c.level == l) = none := List.find?_eq_none.2 fun x hx => by simp [habove x hx]
    simp [hs, List.find?_append, hnone, hl]
  have hkept : s.egress.stack.filter (fun c : SentFrame => c.level != l) = above ++ below := by
    have habove' : above.filter (fun c : SentFrame => c.level != l) = above := List.filter_eq_self.2 fun x hx => by simp [habove x hx]
    have hbelow' : below.filter (fun c : SentFrame => c.level != l) = below := List.filter_eq_self.2 fun x hx => by simp [hbelow x hx]
    simp [hs, List.filter_append, habove', hbelow', hl]
  have hgone : s.egress.stack.filter (fun c : SentFrame => c.level == l) = [c] := by
    have habove' : above.filter (fun c : SentFrame => c.level == l) = [] := List.filter_eq_nil_iff.2 fun x hx => by simp [habove x hx]
    have hbelow' : below.filter (fun c : SentFrame => c.level == l) = [] := List.filter_eq_nil_iff.2 fun x hx => by simp [hbelow x hx]
    simp [hs, List.filter_append, habove', hbelow', hl]
  simp only [State.expireTimer, hfind, hkept, hgone, List.map_cons, List.map_nil]
  rfl

variable (hs : ∀ x ∈ s.egress.stack, x.level ≠ l) (hc : s.egress.current = some c) (hl : c.level = l) (hd : s.egress.dropMark = false)
include hs hc hl hd

/-- With no frame of the level on the stack, its partial frame is the current one. -/
theorem State.expireTimer_current (hf : s.egress.finalInFlight = false) :
    s.expireTimer l =
      if s.egress.segmentInFlight then
        { s with egress := { s.egress with timers := s.egress.timers.set l .stopped, dropMark := true } }.stallAbort l c.flow
      else ({ s with egress := { s.egress with timers := s.egress.timers.set l .stopped, current := none } }.returnChain
        c.chain).stallAbort l c.flow := by
  have hfind : s.egress.stack.find? (fun c : SentFrame => c.level == l) = none := List.find?_eq_none.2 fun x hx => by simp [hs x hx]
  have hpartial : EgressScheduler.partialCurrent { s.egress with timers := s.egress.timers.set l .stopped } = some c :=
    EgressScheduler.partialCurrent_of (e := { s.egress with timers := s.egress.timers.set l .stopped }) hc hd hf
  simp only [State.expireTimer, hfind, hpartial, hl, if_true]
  rfl

end

/-- With something in flight, an expiry's decision event changes nothing. -/
theorem State.stallAbort_busy {s : State} {l : Level} {f : Flow} (h : s.egress.inFlight ≠ none) :
    s.stallAbort l f = (({ s with egress := { s.egress with pendingAborts := setLevel s.egress.pendingAborts l } }.count
      .stallAborts).post (.stallAbort l f)) := State.decisionEvent_busy _ (.inl h)

/-- Settles O34, by where the partial frame stands and what is in flight. -/
theorem stallExpiryGivesThePartialFrameUp : Obligations.StallExpiryGivesThePartialFrameUp := by
  intro s l
  refine ⟨fun h => ?_, fun hended => ?_⟩
  · simp only [exec, execStallTimerExpiry, h, if_false]
  · intro given counted
    rw [exec_stallTimerExpiry_ended hended]
    refine ⟨fun above c below hs hl hother => ?_, fun c hs hc hl hd => ⟨fun g hg hp => ?_, fun hsymbol => ?_⟩⟩
    · rw [State.expireTimer_stack hs hl hother]
      rfl
    · have hf := EgressScheduler.finalInFlight_segment hg hp
      have hsegment : s.egress.segmentInFlight = true := by simp only [EgressScheduler.segmentInFlight, hg]
      have hbusy : s.egress.inFlight ≠ none := by simp [hg]
      rw [State.expireTimer_current hs hc hl hd hf, if_pos hsegment, State.stallAbort_busy]
      · rfl
      · exact hbusy
    · have hsegment := EgressScheduler.segmentInFlight_symbol hsymbol
      have hf := EgressScheduler.finalInFlight_of_not_segment hsegment
      have hbusy := EgressScheduler.inFlight_symbol hsymbol
      rw [State.expireTimer_current hs hc hl hd hf, if_neg (by simp [hsegment]), State.stallAbort_busy]
      · rfl
      · exact hbusy

/-! ## Restart Traffic at the scheduler (R24, R25) -/

section
variable {s : State} {c : SentFrame}

theorem State.restartCurrent_left (h : s.egress.current = none ∨ s.egress.dropMark = true ∨ s.egress.finalInFlight = true) :
    s.restartCurrent = s := by
  simp only [State.restartCurrent, EgressScheduler.partialCurrent_none h]

theorem State.restartCurrent_partial (hc : s.egress.current = some c) (hd : s.egress.dropMark = false)
    (hf : s.egress.finalInFlight = false) :
    s.restartCurrent = if s.egress.segmentInFlight then
        { s.countFlow c.flow .flushed with
          egress := { s.egress with pendingAborts := setLevel s.egress.pendingAborts c.level, dropMark := true } }
      else { s.countFlow c.flow .flushed with
        egress := { s.egress with pendingAborts := setLevel s.egress.pendingAborts c.level, current := none },
        store := { s.store with free := c.chain.reverse ++ s.store.free } } := by
  simp only [State.restartCurrent, EgressScheduler.partialCurrent_of hc hd hf]
  rfl

/-- With something in flight, new pending streams change nothing more (R11). -/
theorem State.restartEgress_busy {u : State} (hu : s.restartLanesAndStack.restartCurrent = u) (hbusy : u.egress.inFlight ≠ none) :
    s.restartEgress = u := by
  simp only [State.restartEgress, hu, State.decisionEvent_busy u (.inl hbusy), ite_self]

end

/-- Settles O35: the lanes and the stack first, then the current frame, by what is in flight. -/
theorem restartDiscardsLanesAndPartialFrames : Obligations.RestartDiscardsLanesAndPartialFrames := by
  intro s transaction lineInTaken pacingTaken hexecution lanes cleared
  let taken : State := { s with agent := { s.agent with execution := .restarting transaction lineInTaken pacingTaken true } }
  have hexec : exec .restartAtEgressScheduler s = .next taken.restartEgress := by
    simp only [exec, execRestartAtEgressScheduler, hexecution, taken]
  have hcleared : taken.restartLanesAndStack = cleared := by
    simp only [State.restartLanesAndStack, State.returnChains_eq, List.flatten_append, cleared, lanes, List.foldl_map,
      EgressScheduler.laneFrames, List.flatMap_def, taken]
  rw [hexec]
  refine ⟨fun hbusy hleft => ?_, fun c hc hd => ?_, fun hn hc => ?_⟩
  · rw [State.restartEgress_busy (u := cleared) (hcleared ▸ State.restartCurrent_left (s := cleared) hleft) hbusy]
  · intro pending
    refine ⟨fun g hg hp => ?_, fun hsymbol => ?_⟩
    · have hsegment : cleared.egress.segmentInFlight = true := by
        have hg : cleared.egress.inFlight = some (.segment g) := hg
        simp only [EgressScheduler.segmentInFlight, hg]
      have hbusy : s.egress.inFlight ≠ none := by simp [hg]
      have hcurrent := State.restartCurrent_partial (s := cleared) hc hd (EgressScheduler.finalInFlight_segment (e := cleared.egress) hg hp)
      rw [if_pos hsegment, ← hcleared] at hcurrent
      rw [State.restartEgress_busy hcurrent hbusy, hcleared]
    · have hsegment := EgressScheduler.segmentInFlight_symbol (e := cleared.egress) hsymbol
      have hbusy := EgressScheduler.inFlight_symbol hsymbol
      have hcurrent := State.restartCurrent_partial (s := cleared) hc hd (EgressScheduler.finalInFlight_of_not_segment hsegment)
      rw [if_neg (by simp [hsegment]), ← hcleared] at hcurrent
      rw [State.restartEgress_busy hcurrent hbusy, hcleared]
  · have hcurrent := State.restartCurrent_left (s := cleared) (.inl hc)
    simp only [State.restartEgress, hcleared, hcurrent]
    rfl

end Sys2Proof.Machine
end

section
/-! The Pacing Unit: admissions and their evaluation, phases and windows standing alone, Restart Traffic (O41 to O44). -/

namespace Sys2Proof.Machine

open Sys2Proof

/-! ## Admissions (R53 to R57) -/

/-- A queue or a context put back where it stood changes nothing. -/
theorem Vector.set_flow_self {α : Type} (v : Vector α 256) (f : Flow) : v.set f v[f] = v := by
  refine Vector.ext fun i hi => ?_
  rw [Vector.getElem_set]
  split
  · rename_i heq
    subst heq
    rfl
  · rfl

section
variable {s : State} {f : FrameRecord}

theorem State.takeRequest_absent (h : (s.activeDescriptor f.flow).present = false) :
    s.takeRequest f = (s.returnChain f.chain).countFlow f.flow .flushed := by
  simp only [State.takeRequest, h, Bool.false_eq_true, if_false]

theorem State.takeRequest_present (h : (s.activeDescriptor f.flow).present = true) :
    s.takeRequest f = (s.admitFrame f).evaluateFlow f.flow := by
  simp only [State.takeRequest, h, if_true]

theorem State.admitFrame_appends (h : s.pacing.queues[f.flow].length < (s.activeDescriptor f.flow).depthLimit.toNat) :
    s.admitFrame f =
      (s.setQueue f.flow (s.pacing.queues[f.flow] ++ [f.arrive s.pacing.tickCounter])).countFlow f.flow .admitted := by
  simp only [State.admitFrame, h, if_true]

variable (h : (s.activeDescriptor f.flow).depthLimit.toNat ≤ s.pacing.queues[f.flow].length)
include h

theorem State.admitFrame_dropNew (ho : (s.activeDescriptor f.flow).overflow = .dropNew) :
    s.admitFrame f = (s.returnChain f.chain).countFlow f.flow .fullDiscards := by
  simp only [State.admitFrame, Nat.not_lt.2 h, if_false, ho]

theorem State.admitFrame_dropOldest (ho : (s.activeDescriptor f.flow).overflow = .dropOldest) {head : QueuedFrame}
    {rest : List QueuedFrame} (hq : s.pacing.queues[f.flow] = head :: rest) :
    s.admitFrame f = (((s.setQueue f.flow (rest ++ [f.arrive s.pacing.tickCounter])).returnChain head.chain).countFlow f.flow
      .fullDiscards).countFlow f.flow .admitted := by
  rw [hq] at h
  simp only [State.admitFrame, hq, Nat.not_lt.2 h, if_false, ho]

end

/-- Settles O41, by the flow's presence, the queue's length and the Overflow Action. -/
theorem admissionAppendsOrOverflows : Obligations.AdmissionAppendsOrOverflows := by
  intro s
  refine ⟨fun hnil => ?_, fun f rest hrequest => ?_⟩
  · simp only [exec, execAdmissionRequest, hnil]
  · intro d queue arrived taken returned
    have hexec : exec .admissionRequest s =
        .next (State.takeRequest { s with pacing := { s.pacing with requests := rest } } f) := by
      simp only [exec, execAdmissionRequest, hrequest]
    have htaken : taken queue = { s with pacing := { s.pacing with requests := rest } } := by
      simp only [taken, queue, Vector.set_flow_self]
    rw [hexec]
    refine ⟨fun habsent => ?_, fun hpresent hroom => ?_, fun hpresent hfull ho => ?_, fun head others hpresent hfull ho hq => ?_⟩
    · rw [State.takeRequest_absent (s := { s with pacing := { s.pacing with requests := rest } }) habsent, htaken]
      rfl
    · rw [State.takeRequest_present (s := { s with pacing := { s.pacing with requests := rest } }) hpresent,
        State.admitFrame_appends (s := { s with pacing := { s.pacing with requests := rest } }) hroom]
      rfl
    · rw [State.takeRequest_present (s := { s with pacing := { s.pacing with requests := rest } }) hpresent,
        State.admitFrame_dropNew (s := { s with pacing := { s.pacing with requests := rest } }) hfull ho, htaken]
      rfl
    · rw [State.takeRequest_present (s := { s with pacing := { s.pacing with requests := rest } }) hpresent,
        State.admitFrame_dropOldest (s := { s with pacing := { s.pacing with requests := rest } }) hfull ho hq]
      rfl

/-! ## The evaluation after an admission (R57, R67, R69) -/

/-- What an evaluation releases has the descriptor's Urgency as its level (R69). -/
theorem Descriptor.evaluate_level (d : Descriptor) (tick : Word32) (draw : Nat) (flow : Flow) (ctx : Option PacingContext)
    (queue : List QueuedFrame) : ∀ f ∈ (d.evaluate tick draw flow ctx queue).released, f.level = d.urgency := by
  obtain ⟨passed, -, -, hreleased, -⟩ := d.pass_passed tick draw flow queue 0 (d.countersOf ctx)
  intro f hf
  rw [Descriptor.evaluate, hreleased, List.mem_map] at hf
  obtain ⟨q, -, rfl⟩ := hf
  rfl

/-- Frames of one level enter that level's lane (R69). -/
theorem lanes_insert_level (lanes : Vector (List ReleasedFrame) 4) {released : List ReleasedFrame} {l : Level}
    (h : ∀ f ∈ released, f.level = l) :
    Vector.ofFn (fun k : Level => lanes[k] ++ released.filter (fun f : ReleasedFrame => f.level == k)) =
      lanes.set l (lanes[l] ++ released) := by
  refine Vector.ext fun k hk => ?_
  rw [Vector.getElem_ofFn, Vector.getElem_set]
  split
  · rename_i heq
    subst heq
    have hall : released.filter (fun f : ReleasedFrame => f.level == (⟨l.val, hk⟩ : Level)) = released :=
      List.filter_eq_self.2 fun f hf => by simp [h f hf]
    rw [hall]
  · rename_i hne
    have hnone : released.filter (fun f : ReleasedFrame => f.level == (⟨k, hk⟩ : Level)) = [] :=
      List.filter_eq_nil_iff.2 fun f hf => by
        rw [h f hf, beq_iff_eq]
        exact fun heq => hne (congrArg Fin.val heq)
    rw [hnone, List.append_nil]
    rfl

@[simp] theorem State.insertLanes_nil (s : State) : s.insertLanes [] = s := rfl

theorem State.insertLanes_cons (s : State) {released : List ReleasedFrame} (h : released ≠ []) :
    s.insertLanes released = State.decisionEvent { s with egress := { s.egress with
      lanes := Vector.ofFn (fun l : Level => s.egress.lanes[l] ++ released.filter (fun f : ReleasedFrame => f.level == l)) } } :=
  if_neg (by simpa using h)

/-- Settles O42: the evaluation's results, then the lane insertion. -/
theorem admissionIsFollowedByOneEvaluation : Obligations.AdmissionIsFollowedByOneEvaluation := by
  rintro s flow r rfl d evaluated
  have heval : s.evaluateFlow flow = evaluated.insertLanes
      (d.evaluate s.pacing.tickCounter s.draws flow s.pacing.contexts[flow] s.pacing.queues[flow]).released := by
    simp only [State.evaluateFlow, State.returnChains_eq, evaluated, List.flatMap_def]
    rfl
  rw [heval]
  refine ⟨fun hnil => ?_, fun hsome => ?_⟩
  · rw [hnil, State.insertLanes_nil]
  · rw [State.insertLanes_cons _ hsome, lanes_insert_level _ (d.evaluate_level _ _ _ _ _)]

/-! ## Phases, windows and epochs standing alone (R59, R63, R65) -/

/-- A Present flow's context that is up to date, changed by a step of its mode. -/
theorem State.changeContext_eq {s : State} {f : Flow} {g : Byte} {k : PacingCounters}
    (hp : (s.activeDescriptor f).present = true) (hg : (s.activeDescriptor f).generation = g) (hm : k.mode = (s.activeDescriptor f).mode)
    (hc : s.pacing.contexts[f] = some { generation := g, counters := k }) (change : Descriptor → PacingCounters → PacingCounters) :
    s.changeContext f change = { s with pacing := { s.pacing with
      contexts := s.pacing.contexts.set f (some { generation := g, counters := change (s.activeDescriptor f) k }) } } := by
  have hup : (s.activeDescriptor f).upToDate (some { generation := g, counters := k }) = true := by
    simp [Descriptor.upToDate, hg, hm]
  simp only [State.changeContext, hc, hp, hup, Bool.and_self, if_true, Descriptor.contextWith, hg]

/-- A step that leaves the counters as they stand leaves the part as it is. -/
theorem State.changeContext_same {s : State} {f : Flow} {c : PacingContext} (hc : s.pacing.contexts[f] = some c) :
    { s with pacing := { s.pacing with contexts := s.pacing.contexts.set f (some c) } } = s := by
  rw [← hc, Vector.set_flow_self]

/-- Settles O43: each step of its mode, at its bound and before it. -/
theorem phasesWindowsAndEpochsEnd : Obligations.PhasesWindowsAndEpochsEnd := by
  intro s f g d after hp hg
  have hstep {k : PacingCounters} (hc : s.pacing.contexts[f] = some { generation := g, counters := k }) (hm : k.mode = d.mode)
      (change : Descriptor → PacingCounters → PacingCounters) : s.changeContext f change = after (change d k) :=
    State.changeContext_eq hp hg hm hc change
  have hstay {k : PacingCounters} (hc : s.pacing.contexts[f] = some { generation := g, counters := k }) : after k = s :=
    State.changeContext_same hc
  refine ⟨fun hmode position released => ⟨fun hc => ?_, fun hc => ?_⟩, fun hmode tick sent window sentInEpoch hc => ⟨?_, ?_⟩⟩
  · refine congrArg Host.Outcome.next ((hstep hc hmode.symm Descriptor.gateChange).trans ?_)
    rw [Descriptor.gateChange_opened]
    split
    · rfl
    · exact hstay hc
  · refine congrArg Host.Outcome.next ((hstep hc hmode.symm Descriptor.gateChange).trans ?_)
    rw [Descriptor.gateChange_shut]
    split
    · rfl
    · exact hstay hc
  · refine congrArg Host.Outcome.next ((hstep hc hmode.symm Descriptor.windowChange).trans ?_)
    rw [Descriptor.windowChange]
    split
    · rfl
    · exact hstay hc
  · refine congrArg Host.Outcome.next ((hstep hc hmode.symm Descriptor.epochChange).trans ?_)
    rw [Descriptor.epochChange]
    split
    · rfl
    · exact hstay hc

/-! ## Restart Traffic at the Pacing Unit (R74) -/

/-- Flushed counted for the flow of each of these frames. -/
theorem CounterBank.addFlushed_frames (b : CounterBank) (gone : List QueuedFrame) :
    b.addFlushed (gone.map (fun q : QueuedFrame => q.flow)) = gone.foldl (fun b (q : QueuedFrame) => b.addFlow q.flow .flushed 1) b := by
  rw [CounterBank.addFlushed, List.foldl_map]

theorem State.clearContexts_all (s : State) :
    s.clearContexts (fun _ => true) = { s with pacing := { s.pacing with contexts := Vector.replicate 256 none } } := by
  have hnone : Vector.ofFn (fun f : Flow => if (fun _ => true) f = true then none else s.pacing.contexts[f]) =
      Vector.replicate 256 (none : Option PacingContext) := Vector.ext fun i hi => by simp
  rw [State.clearContexts, hnone]

/-- Settles O44: all queues are flushed and all contexts cleared. -/
theorem restartEmptiesQueuesAndContexts : Obligations.RestartEmptiesQueuesAndContexts := by
  intro s
  refine ⟨fun hnone => ?_, fun transaction lineInTaken egressTaken hexecution => ?_⟩
  · cases hexecution : s.agent.execution with
    | free => simp only [exec, execRestartAtPacingUnit, hexecution]
    | restarting t r p e =>
      cases p with
      | false => exact absurd hexecution (hnone t r e)
      | true => simp only [exec, execRestartAtPacingUnit, hexecution]
  · intro gone
    let taken : State := { s with agent := { s.agent with execution := .restarting transaction lineInTaken true egressTaken } }
    have hexec : exec .restartAtPacingUnit s = .next ((taken.flushQueues (fun _ => true)).clearContexts (fun _ => true)) := by
      simp only [exec, execRestartAtPacingUnit, hexecution, taken]
    have hgone : gone = (allFlows.filter (fun _ => true)).flatMap (fun f : Flow => taken.pacing.queues[f]) := by
      rw [List.filter_true]
    have hqueues : Vector.ofFn (fun f : Flow => if (fun _ => true) f = true then [] else taken.pacing.queues[f]) =
        Vector.replicate 256 ([] : List QueuedFrame) := Vector.ext fun i hi => by simp
    rw [hexec, taken.flushQueues_eq _ gone hgone, CounterBank.addFlushed_frames, hqueues, State.clearContexts_all]

end Sys2Proof.Machine
end

section
/-! The tick: the sweep of every Present flow, its one lane insertion, and the stall timers (O40). -/

namespace Sys2Proof.Machine

open Sys2Proof

/-! ## What a choice leaves of the timers, and an insertion that makes none -/

theorem IdleChoice.timers {e x : EgressScheduler} {st : FrameStore} {mask : BitVec 4} (h : IdleChoice e st mask x) :
    x.timers = e.timers := by
  cases h <;> rfl

theorem AnyChoice.timers {e : EgressScheduler} {x : Choice} {st : FrameStore} {mask : BitVec 4} (h : AnyChoice e st mask x) :
    x.egress.timers = e.timers := by
  cases h with
  | idle x hr ha hc hx => exact hx.timers
  | forced c x hr ha hc hh hx => exact hx.timers
  | _ => rfl

/-- A decision event leaves the stall timers. -/
@[simp] theorem State.decisionEvent_timers (s : State) : s.decisionEvent.egress.timers = s.egress.timers := by
  by_cases hbusy : s.egress.inFlight ≠ none ∨ s.lineOut.state = .down
  · rw [s.decisionEvent_busy hbusy]
  · rw [not_or, not_not] at hbusy
    rw [s.decisionEvent_choice hbusy.1 hbusy.2]
    exact (s.egress.choose_cases s.store s.lineOut.holdMask).timers

/-- The part with released frames behind those of their lanes, before the decision event (R3, R69). -/
def State.withLanes (s : State) (released : List ReleasedFrame) : State :=
  { s with egress := { s.egress with
      lanes := Vector.ofFn (fun l : Level => s.egress.lanes[l] ++ released.filter (fun f : ReleasedFrame => f.level == l)) } }

theorem State.withLanes_nil (s : State) : s.withLanes [] = s := by
  have hlanes : Vector.ofFn (fun l : Level => s.egress.lanes[l] ++ ([] : List ReleasedFrame).filter (fun f => f.level == l)) =
      s.egress.lanes := Vector.ext fun i hi => by simp
  rw [State.withLanes, hlanes]

theorem State.withLanes_lanes (s : State) (released : List ReleasedFrame) (l : Level) :
    (s.withLanes released).egress.lanes[l] = s.egress.lanes[l] ++ released.filter (fun f : ReleasedFrame => f.level == l) := by
  simp only [State.withLanes, Fin.getElem_fin, Vector.getElem_ofFn]

/-- An insertion is a decision event that sees the lanes after it (R3). -/
theorem State.insertLanes_some (s : State) {released : List ReleasedFrame} (h : released ≠ []) :
    s.insertLanes released = (s.withLanes released).decisionEvent := s.insertLanes_cons h

/-- With something in flight, line-out Down, or nothing released, an insertion changes the lanes alone (R22). -/
theorem State.insertLanes_busy {s : State} {released : List ReleasedFrame}
    (h : s.egress.inFlight ≠ none ∨ s.lineOut.state = .down ∨ released = []) : s.insertLanes released = s.withLanes released := by
  by_cases hnil : released = []
  · rw [hnil, State.insertLanes_nil, State.withLanes_nil]
  · rw [s.insertLanes_some hnil, State.decisionEvent_busy]
    rcases h with hflight | hdown | hempty
    · exact .inl hflight
    · exact .inr hdown
    · exact absurd hempty hnil

@[simp] theorem State.insertLanes_timers (s : State) (released : List ReleasedFrame) :
    (s.insertLanes released).egress.timers = s.egress.timers := by
  by_cases hnil : released = []
  · rw [hnil, State.insertLanes_nil]
  · rw [s.insertLanes_some hnil, State.decisionEvent_timers]
    rfl

/-! ## The sweep (R70) -/

/-- The sweep's evaluation of a flow, were it Present. -/
def State.sweepResult (s : State) (f : Flow) : Evaluation :=
  (s.activeDescriptor f).evaluate s.pacing.tickCounter s.draws f ((s.activeDescriptor f).tickContext s.pacing.contexts[f])
    s.pacing.queues[f]

/-- The flows that take part in the sweep, in ascending index. -/
def State.sweptFlows (s : State) : List Flow := allFlows.filter (fun f : Flow => (s.activeDescriptor f).present)

/-- The part after the sweep, before its lane insertion. -/
def State.swept (s : State) : State :=
  let stale := s.sweptFlows.flatMap (fun f => (s.sweepResult f).stale)
  { s with
    draws := s.draws + 1,
    pacing := { s.pacing with
      queues := Vector.ofFn (fun f : Flow => if (s.activeDescriptor f).present then (s.sweepResult f).queue else s.pacing.queues[f]),
      contexts := Vector.ofFn (fun f : Flow =>
        if (s.activeDescriptor f).present then (s.activeDescriptor f).contextWith (s.sweepResult f).counters else s.pacing.contexts[f]) },
    store := { s.store with free := (stale.flatMap (fun q : QueuedFrame => q.chain)).reverse ++ s.store.free },
    counters := s.counters.addStale stale }

theorem State.sweepContexts_get (s : State) (f : Flow) :
    s.sweepContexts[f] = (s.activeDescriptor f).tickContext s.pacing.contexts[f] := by
  simp only [State.sweepContexts, Fin.getElem_fin, Vector.getElem_ofFn]

theorem State.sweepFlow_eq (s : State) (f : Flow) :
    s.sweepFlow s.sweepContexts f = if (s.activeDescriptor f).present then some (s.sweepResult f) else none := by
  rw [State.sweepFlow, s.sweepContexts_get]
  rfl

/-- What the flows that pass a test yield, gathered in their order. -/
theorem flatMap_filter_getD {α β γ : Type} (l : List α) (p : α → Bool) (r : α → β) (g : β → List γ) :
    l.flatMap (fun x => ((if p x then some (r x) else none).map g).getD []) = (l.filter p).flatMap (fun x => g (r x)) := by
  induction l with
  | nil => rfl
  | cons x rest ih =>
    rw [List.flatMap_cons, ih]
    cases hp : p x with
    | false => simp [hp]
    | true => simp [hp]

/-- The part with these queues and contexts, these frames stale and these released. -/
def State.afterSweep (s : State) (queues : Vector (List QueuedFrame) 256) (contexts : Vector (Option PacingContext) 256)
    (stale : List QueuedFrame) (released : List ReleasedFrame) : State :=
  State.insertLanes { s with
    draws := s.draws + 1,
    pacing := { s.pacing with queues := queues, contexts := contexts },
    store := { s.store with free := (stale.flatMap (fun q : QueuedFrame => q.chain)).reverse ++ s.store.free },
    counters := s.counters.addStale stale } released

/-- The sweep by the 256 evaluations it makes. -/
theorem State.sweep_afterSweep (s : State) (results : Vector (Option Evaluation) 256)
    (hr : results = Vector.ofFn (s.sweepFlow s.sweepContexts)) :
    s.sweep = s.afterSweep (Vector.ofFn fun f : Flow => (results[f].map (fun r : Evaluation => r.queue)).getD s.pacing.queues[f])
      (Vector.ofFn fun f : Flow => results[f].elim s.sweepContexts[f] fun r => (s.activeDescriptor f).contextWith r.counters)
      (allFlows.flatMap fun f : Flow => (results[f].map (fun r : Evaluation => r.stale)).getD [])
      (allFlows.flatMap fun f : Flow => (results[f].map (fun r : Evaluation => r.released)).getD []) := by
  have hchains (u : State) (stale : List QueuedFrame) : u.returnChains (stale.map (fun q : QueuedFrame => q.chain)) =
      { u with store := { u.store with free := (stale.flatMap (fun q : QueuedFrame => q.chain)).reverse ++ u.store.free } } := by
    rw [State.returnChains_eq, List.flatMap_def]
  unfold State.sweep State.afterSweep
  dsimp only
  rw [← hr, hchains]
  generalize s.sweepContexts = contexts
  generalize allFlows = flows
  dsimp only
  congr 4
  funext f
  cases results[f] <;> rfl

/-- The sweep, as the Present flows' evaluations and one insertion of all they release (R70). -/
theorem State.sweep_eq (s : State) : s.sweep = s.swept.insertLanes (s.sweptFlows.flatMap (fun f => (s.sweepResult f).released)) := by
  obtain ⟨results, hr⟩ : ∃ results, results = Vector.ofFn (s.sweepFlow s.sweepContexts) := ⟨_, rfl⟩
  have hresults (f : Flow) : results[f] = if (s.activeDescriptor f).present then some (s.sweepResult f) else none := by
    rw [hr, ← s.sweepFlow_eq f]
    simp only [Fin.getElem_fin, Vector.getElem_ofFn]
  have hgather {γ : Type} (g : Evaluation → List γ) :
      allFlows.flatMap (fun f : Flow => (results[f].map g).getD []) = s.sweptFlows.flatMap (fun f => g (s.sweepResult f)) := by
    simp only [hresults]
    exact flatMap_filter_getD allFlows _ _ g
  have hqueues : (Vector.ofFn fun f : Flow => (results[f].map (fun r : Evaluation => r.queue)).getD s.pacing.queues[f]) =
      s.swept.pacing.queues := by
    refine congrArg Vector.ofFn (funext fun f => ?_)
    rw [hresults]
    split <;> rfl
  have hcontexts : (Vector.ofFn fun f : Flow => results[f].elim s.sweepContexts[f] fun r =>
      (s.activeDescriptor f).contextWith r.counters) = s.swept.pacing.contexts := by
    refine congrArg Vector.ofFn (funext fun f => ?_)
    rw [hresults, s.sweepContexts_get]
    cases hp : (s.activeDescriptor f).present with
    | true => rfl
    | false =>
      rw [Descriptor.tickContext, hp]
      rfl
  rw [s.sweep_afterSweep results hr, hgather, hgather, hqueues, hcontexts]
  rfl

section
variable (s : State) (f : Flow)

theorem State.swept_queue :
    s.swept.pacing.queues[f] = if (s.activeDescriptor f).present then (s.sweepResult f).queue else s.pacing.queues[f] := by
  simp only [State.swept, Fin.getElem_fin, Vector.getElem_ofFn]

theorem State.swept_context :
    s.swept.pacing.contexts[f] = if (s.activeDescriptor f).present then
      (s.activeDescriptor f).contextWith (s.sweepResult f).counters else s.pacing.contexts[f] := by
  simp only [State.swept, Fin.getElem_fin, Vector.getElem_ofFn]

end

/-! ## The tick (R38, R50, R51) -/

/-- A tick: the count, the sweep, the insertion, the timers. -/
theorem exec_tickExpiry_eq (s : State) : exec .tickExpiry s = .next
    { s.countTick.swept.insertLanes (s.countTick.sweptFlows.flatMap fun f => (s.countTick.sweepResult f).released) with
      egress := (s.countTick.swept.insertLanes (s.countTick.sweptFlows.flatMap fun f => (s.countTick.sweepResult f).released)).egress.tickTimers } := by
  rw [← State.sweep_eq]
  rfl

theorem EgressScheduler.tickTimers_get (e : EgressScheduler) (l : Level) : e.tickTimers.timers[l] = e.timers[l].tick := by
  simp [EgressScheduler.tickTimers]

/-- Settles O40: the sweep in its two parts, the results and the insertion. -/
theorem tickExpirySweepsEveryPresentFlow : Obligations.TickExpirySweepsEveryPresentFlow := by
  intro s
  obtain ⟨released, hreleased⟩ : ∃ released, released = s.countTick.sweptFlows.flatMap fun f => (s.countTick.sweepResult f).released :=
    ⟨_, rfl⟩
  obtain ⟨u, hu⟩ : ∃ u, u = s.countTick.swept := ⟨_, rfl⟩
  have hexec := exec_tickExpiry_eq s
  rw [← hreleased, ← hu] at hexec
  have hpacing : (u.insertLanes released).pacing = s.countTick.swept.pacing := by rw [State.insertLanes_pacing, hu]
  have hstore : (u.insertLanes released).store = s.countTick.swept.store := by rw [State.insertLanes_store, hu]
  have hegress : u.egress = s.egress := by rw [hu]; rfl
  have hline : u.lineOut = s.lineOut := by rw [hu]; rfl
  have hqueue (f : Flow) := (congrArg (fun p : PacingUnit => p.queues[f]) hpacing).trans (s.countTick.swept_queue f)
  have hcontext (f : Flow) := (congrArg (fun p : PacingUnit => p.contexts[f]) hpacing).trans (s.countTick.swept_context f)
  refine ⟨_, hexec, frame_tickExpiry s _ hexec, congrArg PacingUnit.tickCounter hpacing, congrArg PacingUnit.period hpacing,
    (congrArg PacingUnit.requests hpacing :), (congrArg FrameStore.mem hstore :), fun f habsent => ⟨?_, ?_⟩, fun l => ?_,
    s.countTick.sweepResult, fun f hpresent => ⟨rfl, ?_, ?_⟩, ?_, fun hbusy => ?_, fun hsome => ?_⟩
  · exact (hqueue f).trans (if_neg (Bool.not_eq_true _ ▸ habsent))
  · exact (hcontext f).trans (if_neg (Bool.not_eq_true _ ▸ habsent))
  · have htimer : (u.insertLanes released).egress.tickTimers.timers[l] = s.egress.timers[l].tick := by
      rw [EgressScheduler.tickTimers_get, State.insertLanes_timers, hegress]
    refine htimer.trans ?_
    cases s.egress.timers[l] <;> rfl
  · exact (hqueue f).trans (if_pos hpresent)
  · exact (hcontext f).trans (if_pos hpresent)
  · exact (congrArg FrameStore.free hstore :)
  · have hins : u.insertLanes released = u.withLanes released := State.insertLanes_busy (by rw [hegress, hline, hreleased]; exact hbusy)
    rw [hins]
    refine ⟨fun l => ?_, ?_, ?_⟩
    · refine (u.withLanes_lanes released l).trans ?_
      rw [hegress, hreleased]
      rfl
    · rw [← hegress]
      rfl
    · rw [hu]
      rfl
  · have hins : u.insertLanes released = (u.withLanes released).decisionEvent := u.insertLanes_some (hreleased ▸ hsome)
    rw [hins]
    refine ⟨u.withLanes released, (u.withLanes released).decisionEvent, ?_, fun l => ?_, rfl, rfl⟩
    · rw [← hegress, hu]
      rfl
    · refine (u.withLanes_lanes released l).trans ?_
      rw [hegress, hreleased]
      rfl

end Sys2Proof.Machine
end

section
/-! The Return Merge: its choice, the bytes of responses and reports, and the completion of a transmission (O45, O46). -/

namespace Sys2Proof.Machine

open Sys2Proof

/-! ## What waits (R156) -/

theorem ReturnMerge.offered_eq_some {m : ReturnMerge} {bytes : List Byte} :
    m.offered = some bytes ↔ ∃ rest, m.buffer = { complete := true, bytes := bytes } :: rest := by
  unfold ReturnMerge.offered
  split
  · rename_i e rest hb
    obtain ⟨complete, content⟩ := e
    cases complete <;> simp [hb]
  · rename_i hb
    simp [hb]

theorem ManagementAgent.readyHead_eq_some {a : ManagementAgent} {r : Response} :
    a.readyHead = some r ↔ ∃ rest, a.outbox = .ready r :: rest := by
  unfold ManagementAgent.readyHead
  split
  · rename_i x rest hb
    simp [hb, eq_comm]
  · rename_i hb
    exact ⟨nofun, fun ⟨rest, h⟩ => absurd h (hb r rest)⟩

section
variable {s : State}

theorem State.agentWaits_iff : s.agentWaits = true ↔ (∃ r rest, s.agent.outbox = .ready r :: rest) ∨ s.reports ≠ [] := by
  rw [State.agentWaits, Bool.or_eq_true, Option.isSome_iff_exists]
  refine or_congr (exists_congr fun r => ManagementAgent.readyHead_eq_some) ?_
  cases s.reports <;> simp

theorem exec_returnMergeChoice_free (hup : s.lineIn.state ≠ .down) (hfree : s.merge.transmitter = .free) :
    exec .returnMergeChoice s = .next s.mergeChoice := by
  have hchoice : (s.lineIn.up && s.merge.transmitter == .free) = true := by simp [LineInReceiver.up, hup, hfree]
  simp only [exec, execReturnMergeChoice, hchoice, if_true]

theorem exec_returnMergeChoice_none (h : s.lineIn.state = .down ∨ s.merge.transmitter ≠ .free) : exec .returnMergeChoice s = .next s := by
  have hchoice : (s.lineIn.up && s.merge.transmitter == .free) = false := by
    rcases h with h | h
    · simp [LineInReceiver.up, h]
    · simp [h]
  simp only [exec, execReturnMergeChoice, hchoice, Bool.false_eq_true, if_false]

/-- The return side is served unless the agent side waits and is not the one served last (R157). -/
theorem State.mergeChoice_return {bytes : List Byte} (ho : s.merge.offered = some bytes)
    (hlast : s.agentWaits = true → s.merge.lastServed = .agentSide) : s.mergeChoice = s.transmit .returnSide .returnFrame bytes := by
  have hchoice : (s.agentWaits && s.merge.lastServed == .returnSide) = false := by
    cases hw : s.agentWaits with
    | false => rfl
    | true => rw [hlast hw]; rfl
  simp only [State.mergeChoice, ho, hchoice, Bool.false_eq_true, if_false]

/-- The agent side is served when the return side does not wait or was served last (R157). -/
theorem State.mergeChoice_agent (hw : s.agentWaits = true) (hlast : ∀ bytes, s.merge.offered = some bytes → s.merge.lastServed = .returnSide) :
    s.mergeChoice = s.serveAgent := by
  unfold State.mergeChoice
  split
  · rename_i bytes ho
    exact if_pos (by rw [hw, hlast bytes ho]; rfl)
  · rfl

theorem State.mergeChoice_none (ho : s.merge.offered = none) (hw : s.agentWaits = false) : s.mergeChoice = s := by
  rw [State.agentWaits, Bool.or_eq_false_iff] at hw
  have hready : s.agent.readyHead = none := by simpa using hw.1
  have hreports : s.reports = [] := by simpa using hw.2
  simp only [State.mergeChoice, ho, State.serveAgent, hready, hreports]

end

/-! ## The bytes of responses and reports (10_formats section 10.2) -/

theorem be32_eq (w : Word32) : be32 w = [BitVec.ofNat 8 (w.toNat / 16777216), BitVec.ofNat 8 (w.toNat / 65536), BitVec.ofNat 8 (w.toNat / 256),
    BitVec.ofNat 8 w.toNat] := by
  have hbyte (n : Nat) : w.extractLsb' n 8 = BitVec.ofNat 8 (w.toNat / 2 ^ n) := by
    apply BitVec.eq_of_toNat_eq
    simp [Nat.shiftRight_eq_div_pow]
  rw [be32, hbyte, hbyte, hbyte, hbyte]
  norm_num

/-- A flow index as a failing item stands in the item's low byte. -/
theorem be16_flow (f : Flow) : be16 (BitVec.ofNat 16 f.val) = [0, BitVec.ofNat 8 f.val] := by
  have hsmall : (BitVec.ofNat 16 f.val).toNat = f.val := by
    rw [BitVec.toNat_ofNat]
    exact Nat.mod_eq_of_lt (by omega)
  have hhigh : f.val / 256 = 0 := Nat.div_eq_of_lt f.isLt
  rw [be16_eq, hsmall, hhigh]
  rfl

/-- The outcome, the reason and the failing item of a JobDone detail. -/
def JobResult.bytes (x : JobResult) : List Byte := [x.byte, x.reasonByte] ++ be16 x.item

theorem JobResult.bytes_flow (f : Flow) : JobResult.bytes (.failed (.defaultFlowAbsent f)) = [1, 3, 0, BitVec.ofNat 8 f.val] :=
  congrArg (fun x => [1, 3] ++ x) (be16_flow f)

theorem Detail.bytes_jobDone (o : JobOutcome) : (Detail.jobDone o).bytes =
    [o.job.kind.byte, o.job.bank.byte] ++ be16 o.job.transaction ++ o.result.bytes ++ [o.job.phase.byte] ++ wordOf o.job.progress := by
  simp only [Detail.bytes, JobResult.bytes, List.append_assoc]

theorem JobKind.byte_eq (k : JobKind) : k.byte = if k = .copy then 1 else 2 := by cases k <;> rfl

theorem JobPhase.byte_eq (p : JobPhase) : p.byte = if p = .map then 0 else 1 := by cases p <;> rfl

theorem Bank.byte_eq (b : Bank) : b.byte = if b = .bankA then 0 else 1 := by cases b <;> rfl

/-- Settles O45: the choice by what waits, then the bytes, record by record. -/
theorem mergeServesTheSideNotServedLast : Obligations.MergeServesTheSideNotServedLast := by
  intro s returnWaits responseWaits agentWaits
  refine ⟨fun h => ?_, fun hup hfree => ⟨fun bytes rest hb hlast => ?_, fun hlast => ?_⟩, fun r => ?_, fun r label => ?_, be16_eq, be32_eq⟩
  · by_cases hevent : s.lineIn.state = .down ∨ s.merge.transmitter ≠ .free
    · exact exec_returnMergeChoice_none hevent
    · rw [not_or, not_not] at hevent
      obtain ⟨hreturn, hagent⟩ := (h.resolve_left hevent.1).resolve_left (not_not.2 hevent.2)
      have ho : s.merge.offered = none := Option.eq_none_iff_forall_ne_some.2 fun bytes hbytes =>
        hreturn ⟨bytes, ReturnMerge.offered_eq_some.1 hbytes⟩
      have hw : s.agentWaits = false := Bool.eq_false_iff.2 fun hw => hagent (State.agentWaits_iff.1 hw)
      rw [exec_returnMergeChoice_free hevent.1 hevent.2, State.mergeChoice_none ho hw]
  · rw [exec_returnMergeChoice_free hup hfree, State.mergeChoice_return (ReturnMerge.offered_eq_some.2 ⟨rest, hb⟩)
      fun hw => hlast (State.agentWaits_iff.1 hw)]
    rfl
  · have hserved (hw : agentWaits) : exec .returnMergeChoice s = .next s.serveAgent := by
      rw [exec_returnMergeChoice_free hup hfree, State.mergeChoice_agent (State.agentWaits_iff.2 hw) fun bytes hbytes =>
        hlast ⟨bytes, ReturnMerge.offered_eq_some.1 hbytes⟩]
    refine ⟨fun r rest hb => ?_, fun r rest hnone hr => ?_⟩
    · rw [hserved (.inl ⟨r, rest, hb⟩)]
      simp only [State.serveAgent, ManagementAgent.readyHead_eq_some.2 ⟨rest, hb⟩]
      rfl
    · have hready : s.agent.readyHead = none := Option.eq_none_iff_forall_ne_some.2 fun x hx =>
        hnone ⟨x, ManagementAgent.readyHead_eq_some.1 hx⟩
      rw [hserved (.inr (by simp [hr]))]
      simp only [State.serveAgent, hready, hr]
      rfl
  · refine ⟨r.status.code, rfl, ?_⟩
    cases r.status <;> rfl
  · refine ⟨r.kind.byte, r.first.bytes, rfl, ?_⟩
    obtain ⟨first, occurrences, tick⟩ := r
    cases first with
    | jobDone o =>
      refine ⟨rfl, o.job.kind.byte, o.job.bank.byte, o.job.phase.byte, o.result.bytes, Detail.bytes_jobDone o, JobKind.byte_eq _,
        Bank.byte_eq _, JobPhase.byte_eq _, ?_⟩
      match o.result with
      | .completed => rfl
      | .failed (.danglingFlow x) => rfl
      | .failed (.reservedLabel x) => rfl
      | .failed (.defaultFlowAbsent f) => exact JobResult.bytes_flow f
      | .aborted => rfl
    | stallAbort level flow => exact ⟨rfl, rfl⟩
    | storeExhausted flow => exact ⟨rfl, rfl⟩
    | inboxOverflow => exact ⟨rfl, rfl⟩
    | checkError x => exact ⟨rfl, rfl⟩
    | unmappedLabel x => exact ⟨rfl, rfl⟩
    | lineState line =>
      refine ⟨rfl, ?_⟩
      cases line <;> rfl

/-- Settles O46, by the kind of frame sent. -/
theorem transmissionCompletionFreesThePlace : Obligations.TransmissionCompletionFreesThePlace := by
  intro s
  refine ⟨fun kind bytes hbusy => ?_, fun hnone => ?_⟩
  · have hexec : exec .lineInTransmissionCompletion s = .next ((s.leaveTransmitter kind).setTransmitter .free) := by
      simp only [exec, execLineInTransmissionCompletion, hbusy]
    rw [hexec]
    cases kind <;> rfl
  · cases ht : s.merge.transmitter with
    | busy kind bytes => exact absurd ht (hnone kind bytes)
    | free => simp only [exec, execLineInTransmissionCompletion, ht]
    | down => simp only [exec, execLineInTransmissionCompletion, ht]

end Sys2Proof.Machine
end

section
/-! The Management Agent: what it begins and repeats, the reads of the part, and Restart Traffic's answer (O47, O48, O50). -/

namespace Sys2Proof.Machine

open Sys2Proof

/-! ## Repeats and Malformed (R136, R138, R140) -/

section
variable {s : State} {e : InboxEntry} {lengths : List Nat} {run : InboxEntry → State → Reply}

/-- An entry that repeats the last transaction is answered from the record (R138). -/
theorem State.handle_repeat {l : LastTransaction} (hl : s.agent.last = some l) (ht : l.transaction = e.transaction) (hc : l.code = e.code) :
    s.handle lengths run e = { s with agent := { s.agent with
      inbox := s.agent.inbox.tail,
      outbox := s.agent.outbox ++ [.ready { l.response with repeated := true, label := s.settings.responseLabel }] } } := by
  simp [State.handle, s.agent.stored_repeat e l hl ht hc, State.placeResponse, State.takeEntry]

/-- A new entry with a length the command does not accept is answered Malformed (R140). -/
theorem State.handle_malformed (hf : s.Fresh e) (hl : e.operandLength ∉ lengths) : s.handle lengths run e = s.answer e .malformed [] := by
  have hlength : lengths.contains e.operandLength = false := by simpa using hl
  simp only [State.handle, ManagementAgent.stored_fresh s e hf, hlength, Bool.false_eq_true, if_false]
  exact State.takeEntry_respond ..

end

/-- Each row of the catalogue begins the commands of its code. -/
theorem exec_catalogue {c : Instr} {code : Byte} {lengths : List Nat} (h : (c, code, lengths) ∈ catalogue) :
    ∃ run, ∀ s, exec c s = .next (s.beginCommand (InboxEntry.isCommand code) lengths run) := by
  simp only [catalogue, List.mem_cons, Prod.mk.injEq, List.not_mem_nil, or_false] at h
  rcases h with ⟨rfl, rfl, rfl⟩ | ⟨rfl, rfl, rfl⟩ | ⟨rfl, rfl, rfl⟩ | ⟨rfl, rfl, rfl⟩ | ⟨rfl, rfl, rfl⟩ | ⟨rfl, rfl, rfl⟩ |
    ⟨rfl, rfl, rfl⟩ | ⟨rfl, rfl, rfl⟩ | ⟨rfl, rfl, rfl⟩ | ⟨rfl, rfl, rfl⟩ | ⟨rfl, rfl, rfl⟩ | ⟨rfl, rfl, rfl⟩ | ⟨rfl, rfl, rfl⟩ |
    ⟨rfl, rfl, rfl⟩ | ⟨rfl, rfl, rfl⟩ | ⟨rfl, rfl, rfl⟩ | ⟨rfl, rfl, rfl⟩ | ⟨rfl, rfl, rfl⟩ | ⟨rfl, rfl, rfl⟩ | ⟨rfl, rfl, rfl⟩ <;>
    exact ⟨_, fun _ => rfl⟩

/-- Settles O47: every row begins its own entries alone, and handles them in the order of R136. -/
theorem agentAnswersRepeatsAndMalformedCommands : Obligations.AgentAnswersRepeatsAndMalformedCommands := by
  intro s e repeated
  refine ⟨fun c code lengths hc => ?_, fun hknown => ?_, fun hbegin hunknown => ?_⟩
  · obtain ⟨run, hexec⟩ := exec_catalogue hc
    refine ⟨fun hnone => ?_, fun hbegin hkind hcode => ?_⟩
    · rw [hexec, State.beginCommand_none]
      exact fun x hx => Bool.eq_false_iff.2 fun hmine => hnone x hx ((InboxEntry.isCommand_iff code x).1 hmine)
    · rw [hexec, State.beginCommand_mine s _ lengths run e hbegin ((InboxEntry.isCommand_iff code e).2 ⟨hkind, hcode⟩)]
      exact ⟨fun l hl ht hlc => by rw [State.handle_repeat hl ht hlc], fun hf hl => by rw [State.handle_malformed hf hl]⟩
  · have hexec : exec .malformedCommand s = .next (s.beginCommand InboxEntry.isUnknown [] (fun _ s => s.refuse .malformed)) := rfl
    rw [hexec, State.beginCommand_none]
    intro x hx
    obtain ⟨hkind, hlow, hhigh⟩ := hknown x hx
    refine Bool.eq_false_iff.2 fun hmine => ?_
    rcases (InboxEntry.isUnknown_iff x).1 hmine with h | h | h
    · exact h hkind
    · rw [h] at hlow
      exact absurd hlow (by decide)
    · omega
  · have hexec : exec .malformedCommand s = .next (s.handle [] (fun _ s => s.refuse .malformed) e) :=
      congrArg Host.Outcome.next (State.beginCommand_mine s _ _ _ e hbegin ((InboxEntry.isUnknown_iff e).2 hunknown))
    rw [hexec]
    exact ⟨fun l hl ht hlc => by rw [State.handle_repeat hl ht hlc], fun hf => by rw [State.handle_malformed hf List.not_mem_nil]⟩

/-! ## The reads of the part (R142, R145, R175) -/

/-- A new command whose owning block changes what the agent's handling does not reach, and answers. -/
theorem State.beginCommand_changed {s t : State} {code : Byte} {lengths : List Nat} {run : InboxEntry → State → Reply} {e : InboxEntry}
    {st : Status} {results : List Byte} (h : s.Begins code lengths e)
    (hr : run e s.takeEntry = { state := t.takeEntry, answer := some (st, results) })
    (hl : t.settings.responseLabel = s.settings.responseLabel) :
    s.beginCommand (InboxEntry.isCommand code) lengths run = t.answer e st results := by
  rw [State.beginCommand_answered s t.takeEntry code lengths run e st results h hr, State.takeEntry_respond, ← hl]
  rfl

@[simp] theorem wordOf_length (n : Nat) : (wordOf n).length = 2 := rfl

@[simp] theorem be32_length (w : Word32) : (be32 w).length = 4 := rfl

@[simp] theorem jobBytes_length (j : Option Job) : (jobBytes j).length = 5 := by cases j <;> rfl

@[simp] theorem currentBytes_length (draw : Nat) (c : Option SentFrame) : (currentBytes draw c).length = 4 := by cases c <;> rfl

theorem flatMap_sentBytes_length (stack : List SentFrame) : (stack.flatMap SentFrame.bytes).length = 3 * stack.length := by
  induction stack with
  | nil => rfl
  | cons c rest ih =>
    rw [List.flatMap_cons, List.length_append, ih, List.length_cons]
    show 3 + 3 * rest.length = 3 * (rest.length + 1)
    omega

theorem stackBytes_eq (stack : List SentFrame) : stackBytes stack =
    [byteOf stack.length] ++ stack.flatMap SentFrame.bytes ++ List.replicate (12 - 3 * stack.length) 0 := by
  rw [stackBytes, padTo, flatMap_sentBytes_length, List.append_assoc]

theorem stackBytes_length {stack : List SentFrame} (h : stack.length ≤ 4) : (stackBytes stack).length = 13 := by
  rw [stackBytes_eq, List.length_append, List.length_append, flatMap_sentBytes_length, List.length_replicate, List.length_singleton]
  omega

theorem reportBytes_length {q : List ReportRecord} (h : q.length ≤ 7) : (reportBytes q).length = 8 := by
  rw [reportBytes, List.length_append, List.length_append, List.length_map, List.length_replicate, List.length_singleton]
  omega

/-- The snapshot has 53 bytes while the stack and the Report Queue keep their bounds (R175). -/
theorem State.snapshot_length {s : State} (hstack : s.egress.stack.length ≤ 4) (hreports : s.reports.length ≤ 7) :
    s.snapshot.length = 53 := by
  have hlanes : (allLevels.flatMap (fun l : Level => wordOf s.egress.lanes[l].length)).length = 8 := by
    simp [allLevels]
  simp only [State.snapshot, List.length_append, jobBytes_length, wordOf_length, hlanes, currentBytes_length,
    stackBytes_length hstack, reportBytes_length hreports, be32_length, List.length_cons, List.length_nil]

theorem State.linesByte_eq (s : State) :
    s.linesByte = (if s.lineIn.state = .down then 0 else 1) + (if s.lineOut.state = .down then 0 else 2) := by
  have hin : boolByte s.lineIn.up = if s.lineIn.state = .down then 0 else 1 := by
    rw [LineInReceiver.up]
    cases s.lineIn.state <;> rfl
  have hout : 2 * boolByte s.lineOut.up = if s.lineOut.state = .down then 0 else 2 := by
    rw [LineOutReceiver.up]
    cases s.lineOut.state <;> rfl
  rw [State.linesByte, hin, hout]

/-- The snapshot of Read Status: its own Inbox place is free and its own Outbox place taken (R151). -/
theorem State.snapshot_takeEntry (s : State) : s.takeEntry.snapshot =
    [s.plan.active.byte, boolByte s.plan.bankA.ready + 2 * boolByte s.plan.bankB.ready] ++ jobBytes s.plan.job
      ++ wordOf s.store.free.length ++ allLevels.flatMap (fun l : Level => wordOf s.egress.lanes[l].length)
      ++ currentBytes s.draws s.egress.current ++ [byteOf s.egress.stack.length] ++ s.egress.stack.flatMap SentFrame.bytes
      ++ List.replicate (12 - 3 * s.egress.stack.length) 0
      ++ [s.lineOut.holdMask.zeroExtend 8, s.egress.pendingAborts.zeroExtend 8, boolByte s.egress.streamReset,
          (if s.lineIn.state = .down then 0 else 1) + (if s.lineOut.state = .down then 0 else 2),
          byteOf (s.agent.inbox.length - 1), byteOf (s.agent.outbox.length + 1), byteOf s.merge.buffer.length]
      ++ [byteOf s.reports.length] ++ s.reports.map (fun r => r.kind.byte) ++ List.replicate (7 - s.reports.length) 0xFF
      ++ be32 s.pacing.tickCounter := by
  have hlines : s.takeEntry.linesByte = _ := s.linesByte_eq
  have hinbox : s.takeEntry.agent.inbox.length = s.agent.inbox.length - 1 := List.length_tail
  have houtbox : s.takeEntry.agent.outbox.length = s.agent.outbox.length + 1 := List.length_append
  rw [State.snapshot, hlines, hinbox, houtbox, stackBytes_eq, reportBytes]
  simp only [List.append_assoc]
  rfl

/-- Settles O48: each read's owning block answers Done with the bytes of the part as it stands. -/
theorem readCommandsReportThePart : Obligations.ReadCommandsReportThePart := by
  intro s e
  refine ⟨fun h => ?_, fun h => ?_, fun h => ?_⟩
  · exact congrArg Host.Outcome.next (State.beginCommand_unchanged h rfl)
  · have hpolicy : s.settings.bytes = be16 s.settings.managementLabel ++ be16 s.settings.responseLabel ++ be16 s.settings.tickPeriod ++
        [s.settings.reserveFloor] ++ be16 s.settings.stallLimit ++ [if s.settings.unmappedPolicy = .defaultFlow then 1 else 0,
          byteOf s.settings.defaultFlow.val, s.settings.reportEnable.zeroExtend 8] := by
      rw [Settings.bytes]
      cases s.settings.unmappedPolicy <;> rfl
    rw [← hpolicy]
    exact congrArg Host.Outcome.next (State.beginCommand_unchanged h rfl)
  · refine ⟨_, _, _, s.takeEntry.snapshot, ?_, s.snapshot_takeEntry, State.snapshot_length (s := s.takeEntry)⟩
    exact congrArg Host.Outcome.next (State.beginCommand_changed (t := { s with draws := s.draws + 1 }) h rfl rfl)

/-! ## Restart Traffic (R146, R147) -/

/-- Settles O50, event by event. -/
theorem restartTrafficWaitsForTheThreeBlocks : Obligations.RestartTrafficWaitsForTheThreeBlocks := by
  intro s
  refine ⟨fun e h => ?_, fun transaction before hexecution houtbox => ?_, fun hnone => ?_, fun hnone => ?_, fun hnone => ?_⟩
  · exact congrArg Host.Outcome.next (State.beginCommand_unanswered s _ _ _ runRestartTraffic e h rfl)
  · intro response
    have hexec : exec .restartTrafficCompletion s = .next (State.respond { s with agent := { s.agent with execution := .free } }
        s.settings.responseLabel transaction 0x12 .done []) := by
      simp only [exec, execRestartTrafficCompletion, hexecution]
    rw [hexec, State.respond_reserved { s with agent := { s.agent with execution := .free } } before _ _ _ _ _ houtbox]
  · simp only [exec, execRestartTrafficCompletion]
  · cases hexecution : s.agent.execution with
    | free => simp only [exec, execRestartAtLineInReceiver, hexecution]
    | restarting t r p g =>
      cases r with
      | false => exact absurd hexecution (hnone t p g)
      | true => simp only [exec, execRestartAtLineInReceiver, hexecution]
  · cases hexecution : s.agent.execution with
    | free => simp only [exec, execRestartAtEgressScheduler, hexecution]
    | restarting t r p g =>
      cases g with
      | false => exact absurd hexecution (hnone t r p)
      | true => simp only [exec, execRestartAtEgressScheduler, hexecution]

end Sys2Proof.Machine
end

section
/-! The bank guard and the start of jobs (O52, O55). -/

namespace Sys2Proof.Machine

open Sys2Proof

/-! ## The bank guard (R112) -/

section
variable {s : State} {ops : List Byte} {k : Bank → Reply}

theorem State.guarded_noBank (h : ∀ b : Bank, operandByte ops 0 ≠ b.byte) : s.guarded ops k = s.refuse .range := by
  simp only [State.guarded, operandBank, (bankOf_eq_none _).2 h]

theorem State.guarded_active (h : operandByte ops 0 = s.plan.active.byte) : s.guarded ops k = s.refuse .activeBank := by
  simp only [State.guarded, operandBank, (bankOf_eq_some _ _).2 h, if_true]

/-- A command on the standby bank meets the running job before its own part (R112). -/
theorem State.guarded_jobRunning (h : operandByte ops 0 = s.plan.active.other.byte) (hj : s.plan.job ≠ none) :
    s.guarded ops k = s.refuse .busy := by
  have hrunning : s.jobRunning = true := Option.isSome_iff_ne_none.2 hj
  simp only [State.guarded, operandBank, (bankOf_eq_some _ _).2 h, if_neg (Bank.other_ne _), hrunning, if_true]

end

/-- The six rows that change a bank or start a job on it. -/
def guardedRows : List (Instr × Byte × List Nat) := [(.writeMapEntry, 0x07, [4]), (.removeMapEntry, 0x08, [3]), (.writeFlow, 0x0A, [20]),
  (.modifyFlow, 0x0B, [22]), (.copyPlan, 0x0C, [1]), (.checkPlan, 0x0D, [1])]

/-- Each of the six rows stands behind the guard; Copy Plan and Check Plan then ask for a pending JobDone (R112, R120). -/
theorem exec_guardedRows {c : Instr} {code : Byte} {lengths : List Nat} (h : (c, code, lengths) ∈ guardedRows) :
    ∃ k : InboxEntry → State → Bank → Reply,
      (∀ s, exec c s = .next (s.beginCommand (InboxEntry.isCommand code) lengths (fun e t => t.guarded e.operands (k e t)))) ∧
      (c = .copyPlan ∨ c = .checkPlan → ∀ e t b, hasReport t.reports .jobDone = true → k e t b = t.refuse .busy) := by
  simp only [guardedRows, List.mem_cons, Prod.mk.injEq, List.not_mem_nil, or_false] at h
  rcases h with ⟨rfl, rfl, rfl⟩ | ⟨rfl, rfl, rfl⟩ | ⟨rfl, rfl, rfl⟩ | ⟨rfl, rfl, rfl⟩ | ⟨rfl, rfl, rfl⟩ | ⟨rfl, rfl, rfl⟩
  case inr.inr.inr.inr.inl => exact ⟨_, fun _ => rfl, fun _ e t b hpending => if_pos hpending⟩
  case inr.inr.inr.inr.inr => exact ⟨_, fun _ => rfl, fun _ e t b hpending => if_pos hpending⟩
  all_goals exact ⟨_, fun _ => rfl, fun hjob => by simp at hjob⟩

/-- Settles O52: the guard's refusals change nothing, whatever the command's own part is. -/
theorem bankGuardJudgesFirst : Obligations.BankGuardJudgesFirst := by
  intro s e c code lengths hc h
  obtain ⟨k, hexec, hpending⟩ := exec_guardedRows hc
  rw [hexec]
  refine ⟨fun hno => ?_, fun hactive => ?_, fun hstandby hbusy => ?_⟩
  · exact congrArg Host.Outcome.next (State.beginCommand_unchanged h (State.guarded_noBank hno))
  · exact congrArg Host.Outcome.next (State.beginCommand_unchanged h (State.guarded_active (s := s.takeEntry) hactive))
  · refine congrArg Host.Outcome.next (State.beginCommand_unchanged h ?_)
    by_cases hj : s.plan.job = none
    · obtain ⟨hjob, hrecord⟩ := hbusy.resolve_left (not_not.2 hj)
      rw [State.guarded_standby (s := s.takeEntry) hstandby hj]
      exact hpending hjob _ _ _ ((hasReport_iff s.reports .jobDone).2 hrecord)
    · exact State.guarded_jobRunning (s := s.takeEntry) hstandby hj

/-! ## Jobs started (R120) -/

/-- A job begins in phase Map, unless its Map phase has no item (R121; log 14). -/
theorem phaseAfter_zero (items : List MapEntry) : phaseAfter items.length 0 = (if items = [] then .flows else .map, 0) := by
  cases items <;> rfl

theorem State.startJob_copy (s : State) (b : Bank) (transaction : Word16) :
    s.startJob .copy b transaction =
      { s with plan := { s.plan.setBank b { s.plan.bank b with map := [], ready := false } with
        job := some { kind := .copy, bank := b, transaction := transaction,
                      phase := if s.plan.activeBank.map = [] then .flows else .map, progress := 0 } } } := by
  simp only [State.startJob, State.jobEntries, phaseAfter_zero]
  rfl

theorem State.startJob_check (s : State) (b : Bank) (transaction : Word16) :
    s.startJob .check b transaction =
      { s with plan := { s.plan.setBank b { s.plan.bank b with ready := false } with
        job := some { kind := .check, bank := b, transaction := transaction,
                      phase := if (s.plan.bank b).map = [] then .flows else .map, progress := 0 } } } := by
  simp only [State.startJob, State.jobEntries, phaseAfter_zero]
  rfl

/-- A job asked for on the standby bank, with no job running and no JobDone pending, starts (R112, R120). -/
theorem State.requestJob_accepted {s : State} {e : InboxEntry} (k : JobKind) (h : operandByte e.operands 0 = s.plan.active.other.byte)
    (hj : s.plan.job = none) (hr : ∀ r ∈ s.reports, r.kind ≠ .jobDone) :
    s.requestJob k e = { state := s.startJob k s.plan.active.other e.transaction, answer := some (.accepted, []) } := by
  have hnone : ¬ hasReport s.reports .jobDone = true := by
    rw [hasReport_iff]
    exact fun ⟨r, hmem, hkind⟩ => hr r hmem hkind
  rw [State.requestJob, State.guarded_standby h hj, if_neg hnone]

/-- Settles O55: the two starts differ in the entries their Map phase works through and in the map they leave. -/
theorem jobsStartOnTheStandbyBank : Obligations.JobsStartOnTheStandbyBank := by
  intro s e b c started hb hj hr
  refine ⟨fun h => ?_, fun h => ?_⟩
  · have hrun := State.requestJob_accepted (s := s.takeEntry) .copy hb hj hr
    rw [State.startJob_copy] at hrun
    exact congrArg Host.Outcome.next (State.beginCommand_changed h hrun rfl)
  · have hrun := State.requestJob_accepted (s := s.takeEntry) .check hb hj hr
    rw [State.startJob_check] at hrun
    exact congrArg Host.Outcome.next (State.beginCommand_changed h hrun rfl)

end Sys2Proof.Machine
end

section
/-! The items of Copy Plan and Check Plan, the end of a job, and Swap Plan (O56, O57). -/

namespace Sys2Proof.Machine

open Sys2Proof

/-! ## Job items (R121 to R123) -/

section
variable {s : State} {j : Job}

theorem exec_jobItemCompletion_copy (hj : s.plan.job = some j) (hk : j.kind = .copy) :
    exec .jobItemCompletion s = .next (s.copyItem j) := by
  simp only [exec, execJobItemCompletion, hj, hk]

theorem exec_jobItemCompletion_check (hj : s.plan.job = some j) (hk : j.kind = .check) :
    exec .jobItemCompletion s = .next (s.checkItem j) := by
  simp only [exec, execJobItemCompletion, hj, hk]

/-- After a map item, phase Flows begins exactly when that item was the last (R121). -/
theorem Job.stepped_map (hp : j.phase = .map) {items : List MapEntry} {x : MapEntry} (hx : items[j.progress]? = some x) :
    j.stepped items.length = if j.progress + 1 = items.length then { j with phase := .flows, progress := 0 }
      else { j with phase := .map, progress := j.progress + 1 } := by
  have hlt : j.progress < items.length := (List.getElem?_eq_some_iff.1 hx).1
  have hlast : items.length ≤ j.progress + 1 ↔ j.progress + 1 = items.length := by omega
  simp only [Job.stepped, hp, phaseAfter, hlast]
  split <;> rfl

theorem Job.stepped_flows (hp : j.phase = .flows) (items : Nat) :
    j.stepped items = { j with phase := .flows, progress := j.progress + 1 } := by
  simp only [Job.stepped, hp]

/-- The flow at a place of the Flows phase. -/
theorem flow_ofNat {f : Flow} {n : Nat} (h : n = f.val) : Fin.ofNat 256 n = f := by
  rw [h]
  exact Fin.ofNat_val_eq_self f

theorem State.copyItem_map (hp : j.phase = .map) {x : MapEntry} (hx : s.plan.activeBank.map[j.progress]? = some x)
    (hlow : ∀ y ∈ (s.plan.bank j.bank).map, y.label.toNat < x.label.toNat) :
    s.copyItem j = (s.setBank j.bank { s.plan.bank j.bank with map := (s.plan.bank j.bank).map ++ [x] }).setJob
      (j.stepped s.plan.activeBank.map.length) := by
  have hinsert := mapInsert_new (s.plan.bank j.bank).map [] x.label x.flow hlow nofun
  rw [List.append_nil] at hinsert
  simp only [State.copyItem, hp, hx, hinsert]

theorem State.copyItem_flows (hp : j.phase = .flows) {f : Flow} (hf : j.progress = f.val) :
    s.copyItem j =
      let s1 := s.setBank j.bank { s.plan.bank j.bank with
        flows := (s.plan.bank j.bank).flows.set f s.plan.activeBank.flows[f] }
      if f.val = 255 then s1.endJob j.finished .completed else s1.setJob (j.stepped 0) := by
  have hlast : 255 ≤ j.progress ↔ f.val = 255 := by omega
  simp only [State.copyItem, hp, flow_ofNat hf, hlast]
  rfl

theorem State.checkItem_map (hp : j.phase = .map) {x : MapEntry} (hx : (s.plan.bank j.bank).map[j.progress]? = some x) :
    s.checkItem j = (s.checkEntry (s.plan.bank j.bank) x).elim (s.setJob (j.stepped (s.plan.bank j.bank).map.length))
      fun why => s.endJob { j with progress := j.progress + 1 } (.failed why) := by
  simp only [State.checkItem, hp, hx]
  cases s.checkEntry (s.plan.bank j.bank) x <;> rfl

theorem State.checkItem_flows (hp : j.phase = .flows) {f : Flow} (hf : j.progress = f.val) :
    s.checkItem j = (s.checkDescriptor (s.plan.bank j.bank) f).elim
      (if f.val = 255 then (s.setBank j.bank { s.plan.bank j.bank with ready := true }).endJob j.finished .completed
        else s.setJob (j.stepped 0))
      fun why => s.endJob { j with progress := j.progress + 1 } (.failed why) := by
  have hlast : 255 ≤ j.progress ↔ f.val = 255 := by omega
  simp only [State.checkItem, hp, flow_ofNat hf, hlast]
  cases s.checkDescriptor (s.plan.bank j.bank) f <;> rfl

end

section
variable (s : State) {c : BankContents} {x : MapEntry} {f : Flow}

theorem State.checkEntry_dangling (h : (c.flows[x.flow]).present = false) : s.checkEntry c x = some (.danglingFlow x.label) := by
  simp only [State.checkEntry, BankContents.descriptor, h, Bool.not_false, if_true]

theorem State.checkEntry_reserved (h : (c.flows[x.flow]).present = true) (hl : x.label = s.settings.managementLabel) :
    s.checkEntry c x = some (.reservedLabel x.label) := by
  simp only [State.checkEntry, BankContents.descriptor, h, Bool.not_true, Bool.false_eq_true, if_false, if_pos hl]

theorem State.checkEntry_passes (h : (c.flows[x.flow]).present = true) (hl : x.label ≠ s.settings.managementLabel) :
    s.checkEntry c x = none := by
  simp only [State.checkEntry, BankContents.descriptor, h, Bool.not_true, Bool.false_eq_true, if_false, if_neg hl]

/-- A descriptor fails its test exactly as the absent Default Flow of a policy in force (R123). -/
theorem State.checkDescriptor_eq : s.checkDescriptor c f =
    if f = s.settings.defaultFlow ∧ s.settings.unmappedPolicy = .defaultFlow ∧ (c.flows[f]).present = false then
      some (.defaultFlowAbsent f) else none := by
  simp only [State.checkDescriptor, BankContents.descriptor, Bool.not_eq_true']

end

/-- Settles O56: an item of each kind in each phase, and for Check Plan the outcome of its test. -/
theorem jobItemsCopyOrTestTheBank : Obligations.JobItemsCopyOrTestTheBank := by
  intro s
  refine ⟨fun hnone => by simp only [exec, execJobItemCompletion, hnone], fun j hj => ?_⟩
  intro source target bankNow going ended afterEntry
  have hafter {items : List MapEntry} {x : MapEntry} (hp : j.phase = .map) (hx : items[j.progress]? = some x) (plan : PlanStore) :
      afterEntry plan items = { s with plan := { plan with job := some (j.stepped items.length) } } := by
    rw [Job.stepped_map hp hx]
    simp only [afterEntry, going]
    split <;> rfl
  refine ⟨fun x hk hp hx hlow => ?_, fun f hk hp hf => ?_, fun x hk hp hx => ?_, fun f hk hp hf => ?_⟩
  · rw [exec_jobItemCompletion_copy hj hk, State.copyItem_map hp hx hlow, hafter hp hx]
    rfl
  · intro copied
    rw [exec_jobItemCompletion_copy hj hk, State.copyItem_flows hp hf, Job.stepped_flows hp]
    rfl
  · rw [exec_jobItemCompletion_check hj hk, State.checkItem_map hp hx, hafter hp hx]
    refine ⟨fun habsent => ?_, fun hpresent hlabel => ?_, fun hpresent hlabel => ?_⟩
    · rw [s.checkEntry_dangling habsent]
      rfl
    · rw [s.checkEntry_reserved hpresent hlabel]
      rfl
    · rw [s.checkEntry_passes hpresent hlabel]
      rfl
  · intro fails
    rw [exec_jobItemCompletion_check hj hk, State.checkItem_flows hp hf, Job.stepped_flows hp]
    refine ⟨fun hfails => ?_, fun hpasses => ?_⟩
    · rw [s.checkDescriptor_eq, if_pos hfails]
      rfl
    · rw [s.checkDescriptor_eq, if_neg hpasses]
      rfl

/-! ## Abort Job (R126) and Swap Plan (R71, R128, R129) -/

section
variable {s : State} {e : InboxEntry} {b : Bank}

theorem runSwapPlan_busy (hb : operandByte e.operands 0 = b.byte) (hj : s.plan.job ≠ none) : runSwapPlan e s = s.refuse .busy := by
  have hrunning : s.jobRunning = true := Option.isSome_iff_ne_none.2 hj
  rw [runSwapPlan, State.withBank_bank hb, if_pos hrunning]

/-- With no job running, the bank named is the active one, one not Ready, or swapped to (R128). -/
theorem runSwapPlan_free (hb : operandByte e.operands 0 = b.byte) (hj : s.plan.job = none) : runSwapPlan e s =
    if b = s.plan.active then s.answerDone [b.byte]
    else if (s.plan.bank b).ready = true then (s.swap b).answerDone [b.byte] else s.refuse .notReady := by
  have hrunning : ¬ s.jobRunning = true := by simp [State.jobRunning, hj]
  rw [runSwapPlan, State.withBank_bank hb, if_neg hrunning]

theorem State.swap_eq (s : State) (b : Bank) (gone : Flow → Bool) (frames : List QueuedFrame)
    (hgone : gone = fun f => (s.plan.activeBank.flows[f]).present && !((s.plan.bank b).flows[f]).present)
    (hframes : frames = (allFlows.filter gone).flatMap (fun f : Flow => s.pacing.queues[f])) :
    s.swap b = { s with
      plan := { s.plan with active := b },
      pacing := { s.pacing with
        queues := Vector.ofFn (fun f : Flow => if gone f then [] else s.pacing.queues[f]),
        contexts := Vector.ofFn (fun f : Flow => if gone f then none else s.pacing.contexts[f]) },
      store := { s.store with free := (frames.flatMap (fun q : QueuedFrame => q.chain)).reverse ++ s.store.free },
      counters := frames.foldl (fun b (q : QueuedFrame) => b.addFlow q.flow .flushed 1) s.counters } := by
  have hswap : s.swap b = ({ s with plan := { s.plan with active := b } }.flushQueues gone).clearContexts gone := by
    rw [hgone]
    rfl
  rw [hswap, State.flushQueues_eq { s with plan := { s.plan with active := b } } gone frames hframes,
    CounterBank.addFlushed_frames, State.clearContexts]

end

/-- Settles O57: Abort Job finds a job or none; Swap Plan is judged in the order of R128. -/
theorem abortEndsTheJobAndSwapFlipsTheBank : Obligations.AbortEndsTheJobAndSwapFlipsTheBank := by
  intro s e
  refine ⟨fun h => ⟨fun hj => ?_, fun j hj => ?_⟩, fun h => ⟨fun hno => ?_, fun b hb => ?_⟩⟩
  · exact congrArg Host.Outcome.next (State.beginCommand_unchanged h (by simp only [runAbortJob, State.takeEntry_plan, hj]; rfl))
  · exact congrArg Host.Outcome.next (State.beginCommand_changed h (by simp only [runAbortJob, State.takeEntry_plan, hj]; rfl) rfl)
  · exact congrArg Host.Outcome.next (State.beginCommand_unchanged h (State.withBank_noBank hno))
  · refine ⟨fun hj => ?_, fun hj hactive => ?_, fun hj hactive hready => ?_, fun hj hactive hready => ?_⟩
    · exact congrArg Host.Outcome.next (State.beginCommand_unchanged h (runSwapPlan_busy (s := s.takeEntry) hb hj))
    · exact congrArg Host.Outcome.next (State.beginCommand_unchanged h
        ((runSwapPlan_free (s := s.takeEntry) hb hj).trans (if_pos hactive)))
    · exact congrArg Host.Outcome.next (State.beginCommand_unchanged h
        ((runSwapPlan_free (s := s.takeEntry) hb hj).trans ((if_neg hactive).trans (if_neg (Bool.eq_false_iff.1 hready)))))
    · intro gone frames
      have hrun := (runSwapPlan_free (s := s.takeEntry) hb hj).trans ((if_neg hactive).trans (if_pos hready))
      rw [State.swap_eq s.takeEntry b gone frames rfl rfl] at hrun
      exact congrArg Host.Outcome.next (State.beginCommand_changed h hrun rfl)

end Sys2Proof.Machine
end

section
/-! Flush Flow and Read Pacing; counting and posting (O58, O60). -/

namespace Sys2Proof.Machine

open Sys2Proof

/-! ## Flush Flow (R72) -/

/-- One queue emptied by its number, as the flush of a set of flows writes it. -/
theorem Vector.ofFn_clear_one {α : Type} (v : Vector (List α) 256) (f : Flow) :
    Vector.ofFn (fun g : Flow => if (g == f) = true then [] else v[g]) = v.set f [] := by
  refine Vector.ext fun i hi => ?_
  have hplace : (⟨i, hi⟩ : Flow) = f ↔ f.val = i := by
    rw [Fin.ext_iff]
    exact eq_comm
  simp only [Vector.getElem_ofFn, Vector.getElem_set, beq_iff_eq, Fin.getElem_fin, hplace]

theorem allFlows_filter_eq (f : Flow) : allFlows.filter (fun g => g == f) = [f] := by
  rw [List.filter_beq, allFlows, List.count_eq_one_of_mem (List.nodup_finRange 256) (List.mem_finRange f), List.replicate_one]

/-- The flush of one flow (R72). -/
theorem State.flushQueues_one (s : State) (f : Flow) : s.flushQueues (fun g => g == f) = { s with
    pacing := { s.pacing with queues := s.pacing.queues.set f [] },
    store := { s.store with free := (s.pacing.queues[f].flatMap (fun q : QueuedFrame => q.chain)).reverse ++ s.store.free },
    counters := s.pacing.queues[f].foldl (fun b (q : QueuedFrame) => b.addFlow q.flow .flushed 1) s.counters } := by
  have hgone : s.pacing.queues[f] =
      (allFlows.filter (fun g => g == f)).flatMap (fun g : Flow => s.pacing.queues[g]) := by
    rw [allFlows_filter_eq, List.flatMap_singleton]
  rw [s.flushQueues_eq (fun g => g == f) _ hgone, CounterBank.addFlushed_frames, Vector.ofFn_clear_one]

/-! ## Read Pacing (R73) -/

/-- The eight counter bytes of a context, mode by mode (10_formats section 10.2). -/
theorem PacingCounters.bytes_length (c : PacingCounters) : c.bytes.length = 8 := by
  cases c <;> rfl

theorem contextBytes_length (draw : Nat) (ctx : Option PacingContext) : (contextBytes draw ctx).length = 11 := by
  cases ctx with
  | none => rfl
  | some c => rw [contextBytes, List.length_append, c.counters.bytes_length]; rfl

theorem headAgeBytes_length (tick : Word32) (q : List QueuedFrame) : (headAgeBytes tick q).length = 5 := by
  cases q <;> rfl

/-- Settles O58: Flush Flow's owning block leaves the flush of one flow, Read Pacing's a draw. -/
theorem flushEmptiesAndReadPacingReportsOneFlow : Obligations.FlushEmptiesAndReadPacingReportsOneFlow := by
  intro s e f queue
  refine ⟨fun h => ?_, fun h => ?_⟩
  · have hrun : runFlushFlow e s.takeEntry = (s.takeEntry.flushQueues (fun g => g == f)).answerDone [byteOf queue.length] := rfl
    rw [State.flushQueues_one] at hrun
    exact congrArg Host.Outcome.next (State.beginCommand_changed h hrun rfl)
  · refine ⟨Config.freeByte s.draws responseSite 0, Config.freeByte s.draws responseSite 1, _,
      congrArg Host.Outcome.next (State.beginCommand_changed (t := { s with draws := s.draws + 1 }) h rfl rfl), ?_, ?_⟩
    · refine congrArg (· ++ be32 s.pacing.tickCounter) (congrArg₂ (· ++ ·) (congrArg₂ (· ++ ·) rfl ?_) ?_)
      · cases hq : queue with
        | nil => exact (congrArg (headAgeBytes _) hq).trans rfl
        | cons head rest => exact (congrArg (headAgeBytes _) hq).trans rfl
      · cases hc : s.pacing.contexts[f] with
        | none => exact (congrArg (contextBytes _) hc).trans rfl
        | some c =>
          refine (congrArg (contextBytes _) hc).trans (congrArg ([1, c.generation, c.counters.mode.byte] ++ ·) ?_)
          cases c.counters with
          | openMode => rfl
          | interval countdown => rfl
          | credit credit => rfl
          | gate phase position released => cases phase <;> rfl
          | tiered tick sent window sentInEpoch => rfl
    · rw [List.length_append, List.length_append, List.length_append, headAgeBytes_length, contextBytes_length, be32_length]
      rfl

/-! ## Counting and posting (R164, R169, R170) -/

theorem State.post_disabled {s : State} {d : Detail} (h : s.settings.enables d.kind = false) : s.post d = s := by
  have hoff : ¬ s.agent.settings.enables d.kind = true := Bool.eq_false_iff.1 h
  rw [State.post, if_neg hoff]

theorem State.post_enabled {s : State} {d : Detail} (h : s.settings.enables d.kind = true) :
    s.post d = { s with reports := postInto s.reports d s.pacing.tickCounter } := by
  have hon : s.agent.settings.enables d.kind = true := h
  rw [State.post, if_pos hon]

/-- Settles O60: counters by what an increment reads as, postings by Report Enable and the pending record of their kind. -/
theorem countersSaturateAndPostingsGather : Obligations.CountersSaturateAndPostingsGather := by
  intro s
  refine ⟨fun c => ⟨s.counters.add c 1, rfl, ?_, fun k hk => ?_, fun f k => CounterBank.readFlow_add _ _ _ _ _⟩,
    fun f c => ⟨s.counters.addFlow f c 1, rfl, ?_, fun g k hk => ?_, fun k => CounterBank.read_addFlow _ _ _ _ _⟩,
    fun d => ⟨fun hd => ?_, fun hd => ⟨fun hnone => ?_, ?_⟩⟩⟩
  · rw [CounterBank.read_add, if_pos rfl, satAdd_toNat]
  · rw [CounterBank.read_add, if_neg hk]
  · rw [CounterBank.readFlow_addFlow, if_pos ⟨rfl, rfl⟩, satAdd_toNat]
  · rw [CounterBank.readFlow_addFlow, if_neg hk]
  · exact State.post_disabled hd
  · rw [State.post_enabled hd, postInto_open _ _ _ hnone]
  · intro before r after hq hr hother
    rw [State.post_enabled hd, hq, postInto_gather before r after d _ hr hother]
    rfl

end Sys2Proof.Machine
end
